-- ==== Sys2Proof/Word.lean ====
section
/-! DEFINITION. The bit-string types of the encoder (00_scope.md R8, R9, R11; 20_memory.md R39). -/

namespace Sys2Proof

/-- A 1-bit value: the registers T and A, the configuration OUT, the 1-bit frame fields. -/
abbrev Bit := BitVec 1

/-- A 4-bit value: field nibbles, the LRC, discrete codes, function codes (R11, R39). -/
abbrev Nibble := BitVec 4

/-- The channel field CH, 2 bits (R9, R57). -/
abbrev ChannelField := BitVec 2

/-- A speed operand: SPEED_W = 8 bits, two's complement (R9, R39). -/
abbrev Speed := BitVec 8

/-- A frame: 16 bits, bit 15 the most significant and the first one rendered (R8, R11, R48). -/
abbrev Frame := BitVec 16

/-- The twelve field bits of a frame, without the LRC nibble (R81). -/
abbrev Body := BitVec 12

/-- One element of a pulse sequence: an unsigned 32-bit duration in microseconds (R8, R32). -/
abbrev Duration := BitVec 32

/-- A pulse sequence, first element first (R11, R32). -/
abbrev PulseSeq := List Duration

end Sys2Proof
end

