-- ==== Sys2Proof/Config.lean ====
section
/-! DEFINITION. The one parameter the spec leaves OPEN: EXT_CODE (00_scope.md R9, 30_encoding.md R60, decision D6).
The per-instance parameters PROTO, CH and OUT are `InstanceConfig` of Syntax.lean; SPEED_W is fixed at 8 (Word.lean); the status codes
(ERR_CODE) are decided by R120 and stand in Machine/Flags.lean. Nothing else is parameterised (R10). -/

namespace Sys2Proof

/-- EXT_CODE: the function code of each of the six extended commands (R60). A state of the model may hold any such table, so a
statement about every state is a statement about every EXT_CODE; the spec asks that the table be injective (`ExtCode.injective`). -/
structure ExtCode where
  brakeThenFloat       : Nibble
  incrementSpeed       : Nibble
  decrementSpeed       : Nibble
  toggleForwardOrFloat : Nibble
  toggleAddress        : Nibble
  alignToggle          : Nibble
  deriving DecidableEq, Repr

end Sys2Proof
end

