-- ==== Sys2Proof/Syntax.lean ====
section
/-! DEFINITION. Operations, command records, configurations and frame readings as data
(30_encoding.md R57 to R61, R65, R66; 00_scope.md R4, R9). -/

namespace Sys2Proof

/-- The four protocols (R3, R9). -/
inductive Proto where
  | so | cpwm | cdir | ext
  deriving DecidableEq, Repr

/-- The four logical channels (R57). -/
inductive Channel where
  | one | two | three | four
  deriving DecidableEq, Repr

/-- The two outputs (R58). -/
inductive Output where
  | red | blue
  deriving DecidableEq, Repr

/-- A DirectState operand (R59). -/
inductive DirectState where
  | float | forward | backward | brake
  deriving DecidableEq, Repr

/-- The six extended commands, in the source's listing order (R60). -/
inductive ExtCommand where
  | brakeThenFloat | incrementSpeed | decrementSpeed | toggleForwardOrFloat | toggleAddress | alignToggle
  deriving DecidableEq, Repr

/-- One operation: one constructor per row of the opcode table (R66). Which instance it is presented to is not part of the
command (R30); the state says that (`State.sel`). -/
inductive Instr where
  /-- SO.PWM s (R92). -/
  | soPwm (speed : Speed)
  /-- SO.DISC d (R93). -/
  | soDisc (code : Nibble)
  /-- CPWM r, b (R99). -/
  | cpwm (red blue : Speed)
  /-- CDIR r, b (R103). -/
  | cdir (red blue : DirectState)
  /-- EXT.BRK (R108). -/
  | extBrk
  /-- EXT.INC (R109). -/
  | extInc
  /-- EXT.DEC (R110). -/
  | extDec
  /-- EXT.TGF (R111). -/
  | extTgf
  /-- EXT.TGA (R112). -/
  | extTga
  /-- EXT.ALN (R113). -/
  | extAln
  deriving DecidableEq, Repr

/-- The protocol whose instances take the operation (R66). -/
def Instr.proto : Instr → Proto
  | .soPwm _ => .so
  | .soDisc _ => .so
  | .cpwm _ _ => .cpwm
  | .cdir _ _ => .cdir
  | .extBrk => .ext
  | .extInc => .ext
  | .extDec => .ext
  | .extTgf => .ext
  | .extTga => .ext
  | .extAln => .ext

/-- The configuration an instance is constructed with: PROTO, CH and, for SO, OUT (R9, R18). -/
inductive InstanceConfig where
  | so (ch : ChannelField) (out : Bit)
  | cpwm (ch : ChannelField)
  | cdir (ch : ChannelField)
  | ext (ch : ChannelField)
  deriving DecidableEq, Repr

/-- PROTO of a configuration. -/
def InstanceConfig.proto : InstanceConfig → Proto
  | .so _ _ => .so
  | .cpwm _ => .cpwm
  | .cdir _ => .cdir
  | .ext _ => .ext

/-- CH of a configuration. -/
def InstanceConfig.ch : InstanceConfig → ChannelField
  | .so ch _ => ch
  | .cpwm ch => ch
  | .cdir ch => ch
  | .ext ch => ch

/-- OUT of a configuration; only SO instances have one, and no other frame has the field. -/
def InstanceConfig.out : InstanceConfig → Bit
  | .so _ out => out
  | .cpwm _ => 0
  | .cdir _ => 0
  | .ext _ => 0

/-- The command record of an SO instance (R65). -/
structure SoCmd where
  kind  : Bit
  speed : Speed
  code  : Nibble
  deriving DecidableEq, Repr

/-- The command record of a CPWM instance (R65). -/
structure CpwmCmd where
  speedRed  : Speed
  speedBlue : Speed
  deriving DecidableEq, Repr

/-- The command record of a CDIR instance (R65): two DirectState codes. -/
structure CdirCmd where
  red  : BitVec 2
  blue : BitVec 2
  deriving DecidableEq, Repr

/-- The command record of an EXT instance (R65): the 3-bit selector. -/
structure ExtCmd where
  xcmd : BitVec 3
  deriving DecidableEq, Repr

/-- A command presented to instance `k` of a protocol's bank, on that instance's own command interface (R29, R65). -/
inductive Request where
  | so (k : Nat) (cmd : SoCmd)
  | cpwm (k : Nat) (cmd : CpwmCmd)
  | cdir (k : Nat) (cmd : CdirCmd)
  | ext (k : Nat) (cmd : ExtCmd)
  deriving DecidableEq, Repr

/-- The reasons of an encoding error (R119, R120). -/
inductive ProtocolError where
  /-- PACK was given a field value wider than its field (R82, R122). -/
  | fieldOverflow
  /-- The command record names no command (R121). -/
  | badCommand
  deriving DecidableEq, Repr

/-- What a frame says: the configuration of the instance that emitted it, the register values it carries, and the operation
(R49 to R51, R53). A format without a Toggle or address register has 0 there. -/
structure FrameView where
  config  : InstanceConfig
  toggle  : Bit
  address : Bit
  op      : Instr
  deriving DecidableEq, Repr

/-- Why a 16-bit value is no frame the hardware emits (R63, R64; treatment U7). -/
inductive FrameError where
  /-- The four nibbles do not xor to 0xF. -/
  | badLrc
  /-- A bit the format fixes (the address bit, or the Toggle or address field of CPWM and CDIR) has the other value. -/
  | fixedBit
  /-- Escape 0 and mode 2 or 3. -/
  | unusedMode
  /-- The function code is that of no extended command. -/
  | reservedFunction
  deriving DecidableEq, Repr

end Sys2Proof
end

