-- ==== Sys2Proof/WellFormed.lean ====
section
/-! DEFINITION. The checks on parameters, command records and frame readings. Every operation is executed whatever these say;
they state which records are legal (R65) and which readings a frame can carry (R49 to R51, R62, R72). -/

namespace Sys2Proof

/-- The six function codes of a table, in listing order. -/
def ExtCode.toList (c : ExtCode) : List Nibble :=
  [c.brakeThenFloat, c.incrementSpeed, c.decrementSpeed, c.toggleForwardOrFloat, c.toggleAddress, c.alignToggle]

/-- EXT_CODE is an injective map (R60). -/
def ExtCode.injective (c : ExtCode) : Bool := decide c.toList.Nodup

/-- The legal values of the EXT selector are 0..5 (R65, R121); every other field of every record is legal at every value. -/
def ExtCmd.legal (c : ExtCmd) : Bool := decide (c.xcmd.toNat ≤ 5)

/-- A command record with no illegal field (R65). -/
def Request.legal : Request → Bool
  | .so _ _ => true
  | .cpwm _ _ => true
  | .cdir _ _ => true
  | .ext _ cmd => cmd.legal

/-- A speed a frame tells apart from every other: -7..8 (R71, R72). -/
def Speed.canonical (s : Speed) : Bool := decide (-7 ≤ s.toInt) && decide (s.toInt ≤ 8)

/-- The operation's speeds, if it has any, are in -7..8: what reading a frame back yields. -/
def Instr.canonical : Instr → Bool
  | .soPwm s => Speed.canonical s
  | .soDisc _ => true
  | .cpwm r b => Speed.canonical r && Speed.canonical b
  | .cdir _ _ => true
  | .extBrk => true
  | .extInc => true
  | .extDec => true
  | .extTgf => true
  | .extTga => true
  | .extAln => true

/-- The operation is one of the instance's protocol (R66). -/
def FrameView.protoOk (v : FrameView) : Bool := decide (v.op.proto = v.config.proto)

/-- A Toggle value other than 0 needs a toggle register: SO and EXT only (R14, R62). -/
def FrameView.toggleOk (v : FrameView) : Bool :=
  decide (v.toggle = 0) || decide (v.config.proto = .so) || decide (v.config.proto = .ext)

/-- An address value other than 0 needs an address register: EXT only (R15, R62). -/
def FrameView.addressOk (v : FrameView) : Bool := decide (v.address = 0) || decide (v.config.proto = .ext)

/-- A reading that some instance can emit as a frame and that the frame determines. -/
def FrameView.wf (v : FrameView) : Bool := v.protoOk && v.toggleOk && v.addressOk && v.op.canonical

end Sys2Proof
end

