-- ==== Sys2Proof/Decode.lean ====
section
/-! DEFINITION. The two decoders and, after them, the two encoders: the command record the host presents (30_encoding.md R65) and
the 16-bit frame of the opcode table (R49 to R53, R62 to R64). Both decoders are total and reject by name. -/

namespace Sys2Proof

/-! ## Code tables (R57 to R60) -/

/-- CH = channel number - 1 (R57). -/
def Channel.field : Channel → ChannelField
  | .one => 0
  | .two => 1
  | .three => 2
  | .four => 3

/-- RED is 0, BLUE is 1 (R58). -/
def Output.field : Output → Bit
  | .red => 0
  | .blue => 1

/-- The 2-bit code of a DirectState (R59). -/
def DirectState.code : DirectState → BitVec 2
  | .float => 0
  | .forward => 1
  | .backward => 2
  | .brake => 3

/-- The DirectState of a 2-bit code; all four are legal (R59, R65). -/
def DirectState.ofCode (c : BitVec 2) : DirectState :=
  if c = 0 then .float else if c = 1 then .forward else if c = 2 then .backward else .brake

/-- The default EXT_CODE table (R60). PRESUMED (unsafe): the spec takes it from general knowledge (G1). -/
def ExtCode.standard : ExtCode where
  brakeThenFloat := 0b0000
  incrementSpeed := 0b0001
  decrementSpeed := 0b0010
  toggleForwardOrFloat := 0b0100
  toggleAddress := 0b0110
  alignToggle := 0b0111

/-- EXT_CODE(c) of a table (R60). -/
def ExtCode.code (t : ExtCode) : ExtCommand → Nibble
  | .brakeThenFloat => t.brakeThenFloat
  | .incrementSpeed => t.incrementSpeed
  | .decrementSpeed => t.decrementSpeed
  | .toggleForwardOrFloat => t.toggleForwardOrFloat
  | .toggleAddress => t.toggleAddress
  | .alignToggle => t.alignToggle

/-- The command whose function code is `f`; none where the code is reserved (R63). -/
def ExtCode.commandOf (t : ExtCode) (f : Nibble) : Option ExtCommand :=
  if f = t.brakeThenFloat then some .brakeThenFloat
  else if f = t.incrementSpeed then some .incrementSpeed
  else if f = t.decrementSpeed then some .decrementSpeed
  else if f = t.toggleForwardOrFloat then some .toggleForwardOrFloat
  else if f = t.toggleAddress then some .toggleAddress
  else if f = t.alignToggle then some .alignToggle
  else none

/-- The operation of an extended command (R66). -/
def ExtCommand.instr : ExtCommand → Instr
  | .brakeThenFloat => .extBrk
  | .incrementSpeed => .extInc
  | .decrementSpeed => .extDec
  | .toggleForwardOrFloat => .extTgf
  | .toggleAddress => .extTga
  | .alignToggle => .extAln

/-- The selector value of an extended command, the source's listing order (R65). -/
def ExtCommand.selector : ExtCommand → BitVec 3
  | .brakeThenFloat => 0
  | .incrementSpeed => 1
  | .decrementSpeed => 2
  | .toggleForwardOrFloat => 3
  | .toggleAddress => 4
  | .alignToggle => 5

/-- The command a selector names; none for 6 and 7 (R65, R121). -/
def ExtCommand.ofSelector (x : BitVec 3) : Option ExtCommand :=
  if x = 0 then some .brakeThenFloat
  else if x = 1 then some .incrementSpeed
  else if x = 2 then some .decrementSpeed
  else if x = 3 then some .toggleForwardOrFloat
  else if x = 4 then some .toggleAddress
  else if x = 5 then some .alignToggle
  else none

/-! ## Decoding a command record (R65, R121) -/

/-- SO: kind 0 is PWM(speed), the code ignored; kind 1 is Discrete(code), the speed ignored (R65). -/
def SoCmd.decode (c : SoCmd) : Instr := if c.kind = 0 then .soPwm c.speed else .soDisc c.code

/-- CPWM: the two speeds (R65). -/
def CpwmCmd.decode (c : CpwmCmd) : Instr := .cpwm c.speedRed c.speedBlue

/-- CDIR: the two DirectState codes (R65). -/
def CdirCmd.decode (c : CdirCmd) : Instr := .cdir (DirectState.ofCode c.red) (DirectState.ofCode c.blue)

/-- EXT: the named command, or BadCommand (R65, R121). -/
def ExtCmd.decode (c : ExtCmd) : Except ProtocolError Instr :=
  match ExtCommand.ofSelector c.xcmd with
  | some x => .ok x.instr
  | none => .error .badCommand

/-- The operation a presented command record stands for; BadCommand is the only rejection (R65, R121). -/
def Request.decode : Request → Except ProtocolError Instr
  | .so _ cmd => .ok cmd.decode
  | .cpwm _ cmd => .ok cmd.decode
  | .cdir _ cmd => .ok cmd.decode
  | .ext _ cmd => cmd.decode

/-- The index of the instance a request is presented to. -/
def Request.index : Request → Nat
  | .so k _ => k
  | .cpwm k _ => k
  | .cdir k _ => k
  | .ext k _ => k

/-! ## Reading a frame (R49 to R51, R53, R62 to R64) -/

/-- The speed in -7..8 whose QUANTIZE value is the nibble; there is exactly one (R72). -/
def speedOfNibble (n : Nibble) : Speed := if n = 8 then 8 else n.signExtend 8

/-- The fields of a frame, read without looking at its LRC nibble, in the order R53 tells the formats apart; the bits the format
fixes are checked (R62, R64). -/
def frameFields (t : ExtCode) (f : Frame) : Except FrameError FrameView :=
  let toggle : Bit := f.extractLsb' 15 1
  let ch : ChannelField := f.extractLsb' 12 2
  let address : Bit := f.extractLsb' 11 1
  let n2 : Nibble := f.extractLsb' 8 4
  let n3 : Nibble := f.extractLsb' 4 4
  if f.getLsbD 14 then
    if toggle = 0 then .ok ⟨.cpwm ch, 0, 0, .cpwm (speedOfNibble n3) (speedOfNibble n2)⟩ else .error .fixedBit
  else if f.getLsbD 10 then
    if address = 0 then
      if f.getLsbD 9 then .ok ⟨.so ch (f.extractLsb' 8 1), toggle, 0, .soDisc n3⟩
      else .ok ⟨.so ch (f.extractLsb' 8 1), toggle, 0, .soPwm (speedOfNibble n3)⟩
    else .error .fixedBit
  else if f.getLsbD 9 then .error .unusedMode
  else if f.getLsbD 8 then
    if toggle = 0 ∧ address = 0 then
      .ok ⟨.cdir ch, 0, 0, .cdir (DirectState.ofCode (f.extractLsb' 4 2)) (DirectState.ofCode (f.extractLsb' 6 2))⟩
    else .error .fixedBit
  else
    match t.commandOf n3 with
    | some c => .ok ⟨.ext ch, toggle, address, c.instr⟩
    | none => .error .reservedFunction

/-- The check of §8 property 7: the four nibbles of an emitted frame xor to 0xF (R80). -/
def lrcHolds (f : Frame) : Bool :=
  decide (f.extractLsb' 12 4 ^^^ f.extractLsb' 8 4 ^^^ f.extractLsb' 4 4 ^^^ f.extractLsb' 0 4 = (0xF : Nibble))

/-- The frame decoder: the fields of a frame the hardware emits, and a named error for every other 16-bit value (R53, R64, U7). -/
def decodeFrame (t : ExtCode) (f : Frame) : Except FrameError FrameView :=
  if lrcHolds f then frameFields t f else .error .badLrc

/-- The reading of an opcode-table word: 16 bits, the default EXT_CODE, the LRC bits free as in every row's mask (log entry 7). -/
def tableView (nbits w : Nat) : Option FrameView :=
  if nbits = 16 ∧ w < 2 ^ 16 then
    match frameFields ExtCode.standard (BitVec.ofNat 16 w) with
    | .ok v => some v
    | .error _ => none
  else none

/-- The operation of an opcode-table word. -/
def decodeTableWord (nbits w : Nat) : Option Instr := (tableView nbits w).map FrameView.op

/-! ## The opcode table (R66) -/

/-- One row of the opcode table: a frame `f` is the row's when `f &&& mask = bits`. -/
structure OpcodeRow where
  mnemonic : String
  mask     : Frame
  bits     : Frame
  deriving DecidableEq, Repr

/-- The ten rows of spec/opcode_table.json: mask and match. -/
def opcodeTable : List OpcodeRow :=
  [⟨"SO.PWM", 0x4E00, 0x0400⟩, ⟨"SO.DISC", 0x4E00, 0x0600⟩, ⟨"CPWM", 0xC000, 0x4000⟩, ⟨"CDIR", 0xCF00, 0x0100⟩,
   ⟨"EXT.BRK", 0x47F0, 0x0000⟩, ⟨"EXT.INC", 0x47F0, 0x0010⟩, ⟨"EXT.DEC", 0x47F0, 0x0020⟩, ⟨"EXT.TGF", 0x47F0, 0x0040⟩,
   ⟨"EXT.TGA", 0x47F0, 0x0060⟩, ⟨"EXT.ALN", 0x47F0, 0x0070⟩]

/-- The mnemonic of an operation (R66). -/
def Instr.mnemonic : Instr → String
  | .soPwm _ => "SO.PWM"
  | .soDisc _ => "SO.DISC"
  | .cpwm _ _ => "CPWM"
  | .cdir _ _ => "CDIR"
  | .extBrk => "EXT.BRK"
  | .extInc => "EXT.INC"
  | .extDec => "EXT.DEC"
  | .extTgf => "EXT.TGF"
  | .extTga => "EXT.TGA"
  | .extAln => "EXT.ALN"

/-! ## Encoding -/

/-- The extended command of an operation, if it is one (R66). -/
def Instr.extCommand : Instr → Option ExtCommand
  | .soPwm _ => none
  | .soDisc _ => none
  | .cpwm _ _ => none
  | .cdir _ _ => none
  | .extBrk => some .brakeThenFloat
  | .extInc => some .incrementSpeed
  | .extDec => some .decrementSpeed
  | .extTgf => some .toggleForwardOrFloat
  | .extTga => some .toggleAddress
  | .extAln => some .alignToggle

/-- The command record of an operation, presented to instance `k` of its protocol (R65). The field a record ignores is 0. -/
def Instr.toRequest (k : Nat) : Instr → Request
  | .soPwm s => .so k ⟨0, s, 0⟩
  | .soDisc d => .so k ⟨1, 0, d⟩
  | .cpwm r b => .cpwm k ⟨r, b⟩
  | .cdir r b => .cdir k ⟨r.code, b.code⟩
  | .extBrk => .ext k ⟨ExtCommand.selector .brakeThenFloat⟩
  | .extInc => .ext k ⟨ExtCommand.selector .incrementSpeed⟩
  | .extDec => .ext k ⟨ExtCommand.selector .decrementSpeed⟩
  | .extTgf => .ext k ⟨ExtCommand.selector .toggleForwardOrFloat⟩
  | .extTga => .ext k ⟨ExtCommand.selector .toggleAddress⟩
  | .extAln => .ext k ⟨ExtCommand.selector .alignToggle⟩

/-- The source's Single-Output checksum: `L = 0xF xor ((T*8 + C) xor ((a<<3)|(1<<2)|(M<<1)|O) xor D)` (R78). -/
def soChecksum (t : Bit) (c : ChannelField) (a m o : Bit) (d : Nibble) : Nibble :=
  (0xF : Nibble) ^^^ ((t.setWidth 4 * (8 : Nibble) + c.setWidth 4) ^^^
    ((a.setWidth 4 <<< 3) ||| ((1 : Nibble) <<< 2) ||| (m.setWidth 4 <<< 1) ||| o.setWidth 4) ^^^ d)

/-- The source's Combo-PWM checksum: `L = 0xF xor (((a<<3)|(1<<2)|C) xor B xor A)` (R78). -/
def cpwmChecksum (a : Bit) (c : ChannelField) (b r : Nibble) : Nibble :=
  (0xF : Nibble) ^^^ (((a.setWidth 4 <<< 3) ||| ((1 : Nibble) <<< 2) ||| c.setWidth 4) ^^^ b ^^^ r)

/-- The source's Extended / Combo-Direct checksum: `L = 0xF xor ((T*8 + E*4 + C) xor (a*8 + M) xor F)` (R78). -/
def extChecksum (t e : Bit) (c : ChannelField) (a : Bit) (m : BitVec 3) (f : Nibble) : Nibble :=
  (0xF : Nibble) ^^^ ((t.setWidth 4 * (8 : Nibble) + e.setWidth 4 * (4 : Nibble) + c.setWidth 4) ^^^
    (a.setWidth 4 * (8 : Nibble) + m.setWidth 4) ^^^ f)

/-- Pattern `T0CC a1MO DDDD LLLL` with a = 0 and the fixed one (R49). -/
def soPattern (t : Bit) (c : ChannelField) (m o : Bit) (d : Nibble) : Frame :=
  t ++ (0 : Bit) ++ c ++ (0 : Bit) ++ (1 : Bit) ++ m ++ o ++ d ++ soChecksum t c 0 m o d

/-- Pattern `01CC BBBB AAAA LLLL` (R50). -/
def cpwmPattern (c : ChannelField) (b r : Nibble) : Frame :=
  (0 : Bit) ++ (1 : Bit) ++ c ++ b ++ r ++ cpwmChecksum 0 c b r

/-- Pattern `TECC aMMM FFFF LLLL` (R51). -/
def extPattern (t e : Bit) (c : ChannelField) (a : Bit) (m : BitVec 3) (f : Nibble) : Frame :=
  t ++ e ++ c ++ a ++ m ++ f ++ extChecksum t e c a m f

/-- The nibble of a speed in -7..8: its low four bits (R73). -/
def nibbleOfSpeed (s : Speed) : Nibble := s.setWidth 4

/-- The frame of a reading, written from the patterns of R49 to R51 and the source's three checksum formulas; the meanings
build theirs with PACK instead. -/
def encodeFrame (t : ExtCode) (v : FrameView) : Frame :=
  match v.op with
  | .soPwm s => soPattern v.toggle v.config.ch 0 v.config.out (nibbleOfSpeed s)
  | .soDisc d => soPattern v.toggle v.config.ch 1 v.config.out d
  | .cpwm r b => cpwmPattern v.config.ch (nibbleOfSpeed b) (nibbleOfSpeed r)
  | .cdir r b => extPattern 0 0 v.config.ch 0 1 (b.code ++ r.code)
  | .extBrk => extPattern v.toggle 0 v.config.ch v.address 0 (t.code .brakeThenFloat)
  | .extInc => extPattern v.toggle 0 v.config.ch v.address 0 (t.code .incrementSpeed)
  | .extDec => extPattern v.toggle 0 v.config.ch v.address 0 (t.code .decrementSpeed)
  | .extTgf => extPattern v.toggle 0 v.config.ch v.address 0 (t.code .toggleForwardOrFloat)
  | .extTga => extPattern v.toggle 0 v.config.ch v.address 0 (t.code .toggleAddress)
  | .extAln => extPattern v.toggle 0 v.config.ch v.address 0 (t.code .alignToggle)

end Sys2Proof
end

