-- ==== Sys2Proof/Machine/State.lean ====
section
/-! DEFINITION. The state of the hardware and of the host's side of its interfaces, as plain data, and the state after reset
(10_state.md R13 to R27, 20_memory.md R29 to R35, 70_reset_and_hazards.md R137, R138, R151, R152). -/

namespace Sys2Proof.Machine

/-- A Single-Output instance: configuration CH, OUT and the toggle register T (R91). -/
structure SoInstance where
  ch  : ChannelField
  out : Bit
  t   : Bit
  deriving DecidableEq, Repr

/-- A Combo-PWM instance: configuration CH, no register (R98). -/
structure CpwmInstance where
  ch : ChannelField
  deriving DecidableEq, Repr

/-- A Combo-Direct instance: configuration CH, no register (R102). -/
structure CdirInstance where
  ch : ChannelField
  deriving DecidableEq, Repr

/-- An Extended instance: configuration CH, the toggle register T and the address register A (R106). -/
structure ExtInstance where
  ch : ChannelField
  t  : Bit
  a  : Bit
  deriving DecidableEq, Repr

/-- The interface pair of one instance, named by its protocol's bank and its index there: instances have no identifiers of their
own (R133). -/
inductive Port where
  | so (k : Nat)
  | cpwm (k : Nat)
  | cdir (k : Nat)
  | ext (k : Nat)
  deriving DecidableEq, Repr

/-- What an accepted command yields: the pulse sequence, or a reason and no pulse at all (R31, R120). -/
inductive Result where
  | ok (p : PulseSeq)
  | err (e : ProtocolError)
  deriving DecidableEq, Repr

/-- One response, with the interface it left on (R31). -/
structure Response where
  port   : Port
  result : Result
  deriving DecidableEq, Repr

/-- The outcome of the external `send` (R35): the environment's draw (U9). -/
inductive SendOutcome where
  | success
  | failure
  deriving DecidableEq, Repr

/-- One use of the pulse sender: the sequence handed over and its outcome (R35, R124). -/
structure SendRecord where
  pulses  : PulseSeq
  outcome : SendOutcome
  deriving DecidableEq, Repr

/-- One action of the host (R152). -/
inductive HostEvent where
  /-- Construct an instance with this configuration (R137); it is appended to its protocol's bank. -/
  | construct (c : InstanceConfig)
  /-- Assert the reset input of an instance (R137). -/
  | reset (p : Port)
  /-- Present a command record on an instance's command interface (R29). -/
  | command (r : Request)
  /-- Hand a pulse sequence to the external pulse sender, which answers as the event says (R35, R124). -/
  | send (p : PulseSeq) (o : SendOutcome)
  /-- Remove power: every lifetime ends and no state survives (R17, R136). -/
  | powerOff
  deriving DecidableEq, Repr

/-- The whole state: the instances' registers with their configuration (the hardware's), EXT_CODE, and the host's side. -/
structure State where
  /-- EXT_CODE (R9, R60): a parameter; no step changes it (log entry 3). -/
  codes     : ExtCode
  /-- The Single-Output instances. -/
  so        : List SoInstance
  /-- The Combo-PWM instances. -/
  cpwm      : List CpwmInstance
  /-- The Combo-Direct instances. -/
  cdir      : List CdirInstance
  /-- The Extended instances. -/
  ext       : List ExtInstance
  /-- The model's own: the index, in the bank of the operation's protocol, of the instance whose command is executed. -/
  sel       : Nat
  /-- The model's own: the host's actions not yet taken, the next one first (R42, R151). -/
  pending   : List HostEvent
  /-- The model's own: the responses delivered to the host, oldest first (R31, R151). -/
  responses : List Response
  /-- The model's own: what was handed to the pulse sender and what it reported to the host, oldest first (R35, R124). -/
  sends     : List SendRecord
  deriving DecidableEq, Repr

/-- Reasons for the machine to stop with a fault: none. Every error of the spec is a response after which the instance accepts the
next command (R118 to R128), so no constructor exists and no step can fault. Safe: it removes no behaviour the spec gives. -/
inductive Fault where
  deriving DecidableEq, Repr

/-- Reasons the model gives no meaning. -/
inductive Refusal where
  /-- Raised only in `exec`'s arm of an instruction that has no meaning yet; no arm raises it in this model. Safe. -/
  | notModelled (mnemonic : String)
  /-- Raised by an operation, a command or a reset whose instance does not exist: there is no such interface in the hardware to
  present it on (R29, R133), so the hardware has no behaviour there. Safe. -/
  | noSuchInstance
  deriving DecidableEq, Repr

/-- The four channels, each as the field value of an instance (R57). -/
def allChannels : List ChannelField := [Channel.one, Channel.two, Channel.three, Channel.four].map Channel.field

/-- The state right after reset: T = 0 and A = 0 everywhere (R27, R138). DESIGN CHOICE (unsafe, log entry 2): the instances are the full
complement of R133, each (protocol, channel[, output]) combination constructed once, in channel order and RED before BLUE.
PRESUMED (unsafe, log entry 4): EXT_CODE is the spec's default table. DESIGN CHOICE (unsafe, log entry 5): nothing is pending, nothing has been answered. -/
def State.reset : State where
  codes := ExtCode.standard
  so := allChannels.flatMap fun ch => [⟨ch, Output.red.field, 0⟩, ⟨ch, Output.blue.field, 0⟩]
  cpwm := allChannels.map fun ch => ⟨ch⟩
  cdir := allChannels.map fun ch => ⟨ch⟩
  ext := allChannels.map fun ch => ⟨ch, 0, 0⟩
  sel := 0
  pending := []
  responses := []
  sends := []

end Sys2Proof.Machine
end

