-- ==== Sys2Proof/Machine/Waveform.lean ====
section
/-! DEFINITION. The Waveform Spec: the constants of 00_scope.md R8 and the three field lists of 41_packer_lrc_render.md R81, R87. -/

namespace Sys2Proof.Machine

/-- Mark of every bit and of both bursts, 6 units: 157 µs (R8, R84). -/
def markUs : Duration := 157

/-- Space of a logical 0, 10 units: 263 µs (R8, R84). -/
def zeroUs : Duration := 263

/-- Space of a logical 1, 21 units: 552 µs (R8, R84). -/
def oneUs : Duration := 552

/-- Space of the start and the end burst, 39 units: 1026 µs (R8, R84). -/
def gapUs : Duration := 1026

/-- The unit counts of the mark and of the zero, one and gap spaces (R8). -/
def markUnits : Nat := 6

/-- See `markUnits`. -/
def zeroUnits : Nat := 10

/-- See `markUnits`. -/
def oneUnits : Nat := 21

/-- See `markUnits`. -/
def gapUnits : Nat := 39

/-- The carrier frequency exported beside the pulse stream (R8, R34). -/
def carrierHz : Nat := 38000

/-- The duty cycle exported beside the pulse stream, in percent (R8, R34). -/
def dutyPercent : Nat := 33

/-- A frame's field as the Waveform Spec lists it: name and width. -/
abbrev FieldSpec := String × Nat

/-- Toggle(1), fixed-zero(1), Channel(2), address(1), fixed-one(1), Mode(1), Output(1), Data(4) (R49). -/
def soLayout : List FieldSpec := [("T", 1), ("0", 1), ("C", 2), ("a", 1), ("1", 1), ("M", 1), ("O", 1), ("D", 4)]

/-- address(1), fixed-one(1), Channel(2), OutputB(4), OutputA(4) (R50). -/
def cpwmLayout : List FieldSpec := [("a", 1), ("1", 1), ("C", 2), ("B", 4), ("A", 4)]

/-- Toggle(1), Escape(1), Channel(2), address(1), Mode(3), Function(4): shared by EXT and CDIR (R51). -/
def extLayout : List FieldSpec := [("T", 1), ("E", 1), ("C", 2), ("a", 1), ("M", 3), ("F", 4)]

/-- A protocol's Waveform Spec: carrier, bit-timing pairs, bursts and the ordered field layout (R87). -/
structure WaveformSpec where
  carrierHz   : Nat
  dutyPercent : Nat
  markUs      : Duration
  zeroUs      : Duration
  oneUs       : Duration
  gapUs       : Duration
  layout      : List FieldSpec
  deriving DecidableEq, Repr

/-- The four Waveform Specs: the timing part is the same in all, CDIR shares EXT's layout (R51, R87). Their carrier and duty cycle are
what an encoder exports beside its pulse stream (R34). -/
def waveformSpec : Proto → WaveformSpec
  | .so => ⟨carrierHz, dutyPercent, markUs, zeroUs, oneUs, gapUs, soLayout⟩
  | .cpwm => ⟨carrierHz, dutyPercent, markUs, zeroUs, oneUs, gapUs, cpwmLayout⟩
  | .cdir => ⟨carrierHz, dutyPercent, markUs, zeroUs, oneUs, gapUs, extLayout⟩
  | .ext => ⟨carrierHz, dutyPercent, markUs, zeroUs, oneUs, gapUs, extLayout⟩

end Sys2Proof.Machine
end

