-- ==== Sys2Proof/Machine/Render.lean ====
section
/-! DEFINITION. The renderer (41_packer_lrc_render.md R84 to R86), reading a pulse sequence back (R85), and the pulse stream of the
response interface (20_memory.md R33). -/

namespace Sys2Proof.Machine

/-- BITPAIR(b): a mark and the space of the bit's value (R84). -/
def bitPair (b : Bool) : PulseSeq := [markUs, if b then oneUs else zeroUs]

/-- BURST: the start burst and the end burst are the same (R84). -/
def burst : PulseSeq := [markUs, gapUs]

/-- RENDER(f): start burst, the sixteen bit pairs most significant bit first, end burst (R84). -/
def render (f : Frame) : PulseSeq :=
  burst ++ (List.range 16).flatMap (fun k => bitPair (f.getLsbD (15 - k))) ++ burst

/-- The value of the first n of bits `b 0, b 1, ...`, the first one least significant. -/
def bitsToNat (b : Nat → Bool) : Nat → Nat
  | 0 => 0
  | n + 1 => bitsToNat b n + (b n).toNat * 2 ^ n

/-- The frame whose bit j is read from element 33 - 2j (R85). -/
def readFrame (p : PulseSeq) : Frame :=
  BitVec.ofNat 16 (bitsToNat (fun j => decide (p[33 - 2 * j]? = some oneUs)) 16)

/-- The frame a sequence renders, if it renders one (§8 property 7, R86). -/
def frameOfPulses (p : PulseSeq) : Option Frame :=
  if render (readFrame p) = p then some (readFrame p) else none

/-- The time on the air of a sequence, in microseconds (R90). -/
def totalUs (p : PulseSeq) : Nat := (p.map BitVec.toNat).sum

/-- One transfer of the pulse stream: `pulse_data` and `pulse_last` (R33). -/
structure Beat where
  data : Duration
  last : Bool
  deriving DecidableEq, Repr

/-- The transfers of a sequence, in index order, `last` with the final element only (R33). -/
def beats : PulseSeq → List Beat
  | [] => []
  | [d] => [⟨d, true⟩]
  | d :: e :: rest => ⟨d, false⟩ :: beats (e :: rest)

end Sys2Proof.Machine
end

