-- ==== Sys2Proof/Machine/Flags.lean ====
section
/-! DEFINITION. There are no flags or condition codes (10_state.md R21): an operation's outcome is carried by its response only. What
stands in their place is the status code of a response (60_exceptions.md R120) and the stream it delivers (20_memory.md R31, R33). -/

namespace Sys2Proof.Machine

/-- The status codes of `rsp_status` (R120). -/
def Result.status : Result → Nat
  | .ok _ => 0
  | .err .fieldOverflow => 1
  | .err .badCommand => 2

/-- What leaves on the pulse stream: the whole sequence, or nothing for an error (R31, R33). -/
def Result.stream : Result → List Beat
  | .ok p => beats p
  | .err _ => []

end Sys2Proof.Machine
end

