-- ==== Sys2Proof/Machine/Operands.lean ====
section
/-! DEFINITION. Operand assembly: the speed quantizer (40_quantizer.md) and the CDIR data nibble (30_encoding.md R59). -/

namespace Sys2Proof.Machine

/-- CLAMP (R71): 8 is kept, above it 7, below -7 it is -7. -/
def clamp (s : Int) : Int :=
  if s = 8 then 8 else if s > 8 then 7 else if s < -7 then -7 else s

/-- QUANTIZE (R70), on mathematical integers; clamp before encode (R76). -/
def quantize (s : Int) : Nat :=
  let c := clamp s
  if c = 0 then 0 else if c = 8 then 8 else if 1 ≤ c ∧ c ≤ 7 then c.toNat else 16 - c.natAbs

/-- The Data value of CDIR: `(blue << 2) | red` on the two DirectState codes (R59, R103). -/
def directData (red blue : DirectState) : Nat := (blue.code.toNat <<< 2) ||| red.code.toNat

end Sys2Proof.Machine
end

