-- ==== Sys2Proof/Machine/Packer.lean ====
section
/-! DEFINITION. The bit-field packer and its LRC (41_packer_lrc_render.md R77 to R83), and the three frame formats as PACK applied to
their field lists (30_encoding.md R49 to R51). -/

namespace Sys2Proof.Machine

/-- One field given to PACK: name, width and an unsigned value of any size (R81). -/
structure Field where
  name  : String
  width : Nat
  value : Nat
  deriving DecidableEq, Repr

/-- The field lists PACK is defined for: widths of at least 1 that sum to 12 (R81, decision D26). -/
structure FieldList where
  fields   : List Field
  positive : fields.all (fun f => 1 ≤ f.width) = true
  total    : (fields.map Field.width).sum = 12

/-- LRC (R77). -/
def lrc (n1 n2 n3 : Nibble) : Nibble := (0xF : Nibble) ^^^ n1 ^^^ n2 ^^^ n3

/-- `v_1 ++ v_2 ++ ... ++ v_k`, each value on its width, the first in the most significant position (R81). -/
def concatValues (fields : List Field) : Nat := fields.foldl (fun acc f => acc * 2 ^ f.width + f.value) 0

/-- The twelve field bits with their LRC nibble (R52, R81). -/
def withLrc (body : Body) : Frame :=
  body ++ lrc (body.extractLsb' 8 4) (body.extractLsb' 4 4) (body.extractLsb' 0 4)

/-- PACK (R81): FieldOverflow if a value does not fit its width (R82), else the concatenation and its LRC. -/
def pack (fl : FieldList) : Except ProtocolError Frame :=
  if fl.fields.all (fun f => f.value < 2 ^ f.width) then .ok (withLrc (BitVec.ofNat 12 (concatValues fl.fields)))
  else .error .fieldOverflow

/-- A layout's fields with their values, in order. -/
def fill (layout : List FieldSpec) (values : List Nat) : List Field :=
  List.zipWith (fun l v => ⟨l.1, l.2, v⟩) layout values

/-- The field list of FRAME_SO (R49, R81). -/
def soFields (t : Bit) (c : ChannelField) (m o : Bit) (d : Nat) : FieldList :=
  ⟨fill soLayout [t.toNat, 0, c.toNat, 0, 1, m.toNat, o.toNat, d], rfl, rfl⟩

/-- FRAME_SO(T, C, M, O, D) (R49). -/
def frameSo (t : Bit) (c : ChannelField) (m o : Bit) (d : Nat) : Except ProtocolError Frame := pack (soFields t c m o d)

/-- The field list of FRAME_CPWM (R50, R81). -/
def cpwmFields (c : ChannelField) (b a : Nat) : FieldList :=
  ⟨fill cpwmLayout [0, 1, c.toNat, b, a], rfl, rfl⟩

/-- FRAME_CPWM(C, B, A) (R50). -/
def frameCpwm (c : ChannelField) (b a : Nat) : Except ProtocolError Frame := pack (cpwmFields c b a)

/-- The field list of FRAME_X (R51, R81). -/
def extFields (t e : Bit) (c : ChannelField) (a : Bit) (m : BitVec 3) (f : Nat) : FieldList :=
  ⟨fill extLayout [t.toNat, e.toNat, c.toNat, a.toNat, m.toNat, f], rfl, rfl⟩

/-- FRAME_X(T, E, C, a, M, F) (R51). -/
def frameExt (t e : Bit) (c : ChannelField) (a : Bit) (m : BitVec 3) (f : Nat) : Except ProtocolError Frame :=
  pack (extFields t e c a m f)

end Sys2Proof.Machine
end

