-- ==== Sys2Proof/Machine/Ops.lean ====
section
/-! DEFINITION. The shared operations over State: registers, responses, taking an error, delivering a frame, the host's actions on
instances, and placing an operation for the next step. There is no memory to operate on (20_memory.md R28). -/

namespace Sys2Proof.Machine

/-- The outcome of a step or a meaning. -/
abbrev StepResult := Host.Outcome State Fault Refusal

/-- `1 - x` on a 1-bit register (R14, R15). -/
def flipBit (b : Bit) : Bit := 1 - b

/-- The instance exists. -/
def State.has (s : State) : Port → Bool
  | .so k => decide (k < s.so.length)
  | .cpwm k => decide (k < s.cpwm.length)
  | .cdir k => decide (k < s.cdir.length)
  | .ext k => decide (k < s.ext.length)

/-- `T <- v` of the selected SO instance (R14). -/
def State.setSoT (s : State) (v : Bit) : State :=
  { s with so := s.so.modify s.sel fun i => { i with t := v } }

/-- `T <- v` of the selected EXT instance (R14). -/
def State.setExtT (s : State) (v : Bit) : State :=
  { s with ext := s.ext.modify s.sel fun i => { i with t := v } }

/-- `A <- v` of the selected EXT instance (R15). -/
def State.setExtA (s : State) (v : Bit) : State :=
  { s with ext := s.ext.modify s.sel fun i => { i with a := v } }

/-- Deliver a response on an instance's response interface (R31). -/
def respond (p : Port) (r : Result) (s : State) : State := { s with responses := s.responses ++ [⟨p, r⟩] }

/-- TAKING AN ERROR, the hardware's only exception (R125): the response is `Err(reason)`; no register is written, no pulse is produced,
control goes nowhere. There is no return from it: the instance accepts the next command as before (R126). -/
def raiseProtocolError (p : Port) (e : ProtocolError) (s : State) : StepResult := .next (respond p (.err e) s)

/-- The end of an operation: if PACK failed the error is raised and nothing is written (R82, R125); else the frame is rendered, then
the registers are written by `commit`, and the response is `Ok` with the pulse sequence (R38, R47). -/
def deliver (p : Port) (packed : Except ProtocolError Frame) (commit : State → State) (s : State) : StepResult :=
  match packed with
  | .error e => raiseProtocolError p e s
  | .ok f => .next (respond p (.ok (render f)) (commit s))

/-- Run `body` on the selected SO instance. -/
def withSo (s : State) (body : SoInstance → StepResult) : StepResult :=
  match s.so[s.sel]? with
  | some i => body i
  | none => .refused .noSuchInstance

/-- Run `body` on the selected CPWM instance. -/
def withCpwm (s : State) (body : CpwmInstance → StepResult) : StepResult :=
  match s.cpwm[s.sel]? with
  | some i => body i
  | none => .refused .noSuchInstance

/-- Run `body` on the selected CDIR instance. -/
def withCdir (s : State) (body : CdirInstance → StepResult) : StepResult :=
  match s.cdir[s.sel]? with
  | some i => body i
  | none => .refused .noSuchInstance

/-- Run `body` on the selected EXT instance. -/
def withExt (s : State) (body : ExtInstance → StepResult) : StepResult :=
  match s.ext[s.sel]? with
  | some i => body i
  | none => .refused .noSuchInstance

/-- Construct an instance: its configuration, and every register 0 (R137, R138). Construction cannot fail (R123). -/
def construct (c : InstanceConfig) (s : State) : State :=
  match c with
  | .so ch out => { s with so := s.so ++ [⟨ch, out, 0⟩] }
  | .cpwm ch => { s with cpwm := s.cpwm ++ [⟨ch⟩] }
  | .cdir ch => { s with cdir := s.cdir ++ [⟨ch⟩] }
  | .ext ch => { s with ext := s.ext ++ [⟨ch, 0, 0⟩] }

/-- Reset an instance: the same configuration, every register 0 (R137, R138, R27). -/
def resetInstance (p : Port) (s : State) : StepResult :=
  if s.has p then
    match p with
    | .so k => .next { s with so := s.so.modify k fun i => { i with t := 0 } }
    | .cpwm _ => .next s
    | .cdir _ => .next s
    | .ext k => .next { s with ext := s.ext.modify k fun i => { i with t := 0, a := 0 } }
  else .refused .noSuchInstance

/-- Power-off ends the lifetime of every instance; nothing of their state survives (R17, R136). The host's records remain the host's. -/
def powerOff (s : State) : State := { s with so := [], cpwm := [], cdir := [], ext := [] }

/-- The external `send`: its outcome goes to the host unchanged and no instance is affected (R47, R124). -/
def recordSend (p : PulseSeq) (o : SendOutcome) (s : State) : State := { s with sends := s.sends ++ [⟨p, o⟩] }

/-- A bank with an instance that meets `found`: the bank itself, or with a newly constructed one appended. -/
def findOrAppend {α : Type} (found : α → Bool) (fresh : α) (bank : List α) : List α :=
  if bank.any found then bank else bank ++ [fresh]

/-- Place the operation a frame reading names as the next command: on the first instance with the reading's configuration,
constructed if there is none. The reading's T and A are register values, not part of the command, and are not written. -/
def placeView (v : FrameView) (s : State) : State :=
  match v.config with
  | .so ch out =>
    let found : SoInstance → Bool := fun i => decide (i.ch = ch) && decide (i.out = out)
    { s with so := findOrAppend found ⟨ch, out, 0⟩ s.so, pending := .command (v.op.toRequest (s.so.findIdx found)) :: s.pending }
  | .cpwm ch =>
    let found : CpwmInstance → Bool := fun i => decide (i.ch = ch)
    { s with cpwm := findOrAppend found ⟨ch⟩ s.cpwm, pending := .command (v.op.toRequest (s.cpwm.findIdx found)) :: s.pending }
  | .cdir ch =>
    let found : CdirInstance → Bool := fun i => decide (i.ch = ch)
    { s with cdir := findOrAppend found ⟨ch⟩ s.cdir, pending := .command (v.op.toRequest (s.cdir.findIdx found)) :: s.pending }
  | .ext ch =>
    let found : ExtInstance → Bool := fun i => decide (i.ch = ch)
    { s with ext := findOrAppend found ⟨ch, 0, 0⟩ s.ext, pending := .command (v.op.toRequest (s.ext.findIdx found)) :: s.pending }

/-- Place the operation of an opcode-table word as the next command; a word that names none changes nothing. -/
def placeTableWord (nbits w : Nat) (s : State) : State :=
  match tableView nbits w with
  | some v => placeView v s
  | none => s

end Sys2Proof.Machine
end

