-- ==== Sys2Proof/Machine/ComboDirect.lean ====
section
/-! DEFINITION. The Combo-Direct encoder (44_combo_direct.md). -/

namespace Sys2Proof.Machine

/-- CDIR r, b (R103): format X with T = 0, E = 0, a = 0, M = 1 and the data nibble `(b << 2) | r`; no state. -/
def execCdir (red blue : DirectState) (s : State) : StepResult :=
  withCdir s fun i => deliver (.cdir s.sel) (frameExt 0 0 i.ch 0 1 (directData red blue)) (fun u => u) s

end Sys2Proof.Machine
end

