-- ==== Sys2Proof/Machine/ComboPwm.lean ====
section
/-! DEFINITION. The Combo-PWM encoder (43_combo_pwm.md). -/

namespace Sys2Proof.Machine

/-- CPWM r, b (R99): A = QUANTIZE(r), B = QUANTIZE(b), each on its own; no state. -/
def execCpwm (red blue : Speed) (s : State) : StepResult :=
  withCpwm s fun i =>
    deliver (.cpwm s.sel) (frameCpwm i.ch (quantize blue.toInt) (quantize red.toInt)) (fun u => u) s

end Sys2Proof.Machine
end

