-- ==== Sys2Proof/Machine/Extended.lean ====
section
/-! DEFINITION. The Extended encoder (45_extended.md): the common body of R107 and one meaning per operation (R108 to R113). -/

namespace Sys2Proof.Machine

/-- The registers after a successful EXT(c): T flips always, A flips for ToggleAddress only (R107, R114). -/
def commitExt (c : ExtCommand) (i : ExtInstance) (s : State) : State :=
  let u := s.setExtT (flipBit i.t)
  if c = .toggleAddress then u.setExtA (flipBit i.a) else u

/-- EXT(c), the common body (R107): the frame carries T and A as they were before. -/
def encodeExt (c : ExtCommand) (s : State) : StepResult :=
  withExt s fun i => deliver (.ext s.sel) (frameExt i.t 0 i.ch i.a 0 (s.codes.code c).toNat) (commitExt c i) s

/-- EXT.BRK (R108). -/
def execExtBrk (s : State) : StepResult := encodeExt .brakeThenFloat s

/-- EXT.INC (R109). -/
def execExtInc (s : State) : StepResult := encodeExt .incrementSpeed s

/-- EXT.DEC (R110). -/
def execExtDec (s : State) : StepResult := encodeExt .decrementSpeed s

/-- EXT.TGF (R111). -/
def execExtTgf (s : State) : StepResult := encodeExt .toggleForwardOrFloat s

/-- EXT.TGA (R112). -/
def execExtTga (s : State) : StepResult := encodeExt .toggleAddress s

/-- EXT.ALN (R113). -/
def execExtAln (s : State) : StepResult := encodeExt .alignToggle s

end Sys2Proof.Machine
end

