-- ==== Sys2Proof/Machine/SingleOutput.lean ====
section
/-! DEFINITION. The Single-Output encoder (42_single_output.md). -/

namespace Sys2Proof.Machine

/-- SO.PWM s (R92): mode 0, data = QUANTIZE(s); T flips after the sequence exists. -/
def execSoPwm (speed : Speed) (s : State) : StepResult :=
  withSo s fun i =>
    deliver (.so s.sel) (frameSo i.t i.ch 0 i.out (quantize speed.toInt)) (fun u => u.setSoT (flipBit i.t)) s

/-- SO.DISC d (R93): mode 1, data = the 4-bit code; T is read and not written. -/
def execSoDisc (code : Nibble) (s : State) : StepResult :=
  withSo s fun i => deliver (.so s.sel) (frameSo i.t i.ch 1 i.out code.toNat) (fun u => u) s

end Sys2Proof.Machine
end

