-- ==== Sys2Proof/Machine/Dispatch.lean ====
section
/-! DEFINITION. One arm per operation (30_encoding.md R66). -/

namespace Sys2Proof.Machine

def exec (i : Instr) (s : State) : Host.Outcome State Fault Refusal :=
  match i with
  | .soPwm speed => Sys2Proof.Machine.execSoPwm speed s
  | .soDisc code => Sys2Proof.Machine.execSoDisc code s
  | .cpwm red blue => Sys2Proof.Machine.execCpwm red blue s
  | .cdir red blue => Sys2Proof.Machine.execCdir red blue s
  | .extBrk => Sys2Proof.Machine.execExtBrk s
  | .extInc => Sys2Proof.Machine.execExtInc s
  | .extDec => Sys2Proof.Machine.execExtDec s
  | .extTgf => Sys2Proof.Machine.execExtTgf s
  | .extTga => Sys2Proof.Machine.execExtTga s
  | .extAln => Sys2Proof.Machine.execExtAln s

end Sys2Proof.Machine
end

