-- ==== Sys2Proof/Machine/Events.lean ====
section
/-! DEFINITION. Taking one action of the host (70_reset_and_hazards.md R152): accepting a command, resetting, constructing, sending,
powering off. -/

namespace Sys2Proof.Machine

/-- The interface a request is presented on. -/
def requestPort : Request → Port
  | .so k _ => .so k
  | .cpwm k _ => .cpwm k
  | .cdir k _ => .cdir k
  | .ext k _ => .ext k

/-- Accept a command record (R29, R30): BadCommand is raised before the state is read (R121, R128); a named command is executed on the
instance it was presented to. -/
def acceptCommand (r : Request) (s : State) : StepResult :=
  if s.has (requestPort r) then
    match r.decode with
    | .error e => raiseProtocolError (requestPort r) e s
    | .ok i => exec i { s with sel := r.index }
  else .refused .noSuchInstance

/-- Take one action of the host. -/
def runEvent (e : HostEvent) (s : State) : StepResult :=
  match e with
  | .construct c => .next (construct c s)
  | .reset p => resetInstance p s
  | .command r => acceptCommand r s
  | .send p o => .next (recordSend p o s)
  | .powerOff => .next (powerOff s)

/-- The host's next action, in the order the host presents them (R42); with none pending the instances wait for a command (R27). -/
def takeNext (s : State) : StepResult :=
  match s.pending with
  | [] => .next s
  | e :: rest => runEvent e { s with pending := rest }

end Sys2Proof.Machine
end

