-- ==== Sys2Proof/Machine/Step.lean ====
section
/-! DEFINITION. One step of the machine: one action of the host, an operation being one atomic step (20_memory.md R38, R42), and the
placing of an opcode-table word as the next command (log entry 6). -/

namespace Sys2Proof.Machine

/-- One step: take the host's next action. -/
def step (s : State) : Host.Outcome State Fault Refusal := takeNext s

/-- `s` with the operation of an opcode-table word as the host's next action, presented to an instance of the word's configuration. -/
def State.withFetchWord (s : State) (nbits w : Nat) : State := placeTableWord nbits w s

end Sys2Proof.Machine
end

