-- ==== Sys2Proof/Safety.lean ====
section
/-! DEFINITION. What counts as a good state, in the terms the statements use: every response the host was given is one the spec allows
(20_memory.md R31, 30_encoding.md R64, 41_packer_lrc_render.md R80, R86, 60_exceptions.md R121, R122). -/

namespace Sys2Proof.Machine

/-- The protocol of an interface. -/
def Port.proto : Port → Proto
  | .so _ => .so
  | .cpwm _ => .cpwm
  | .cdir _ => .cdir
  | .ext _ => .ext

/-- An `Ok` carries the rendering of a frame that decodes, to a reading of the port's protocol; an `Err` is BadCommand, from an EXT
port. -/
def Response.valid (t : ExtCode) (r : Response) : Bool :=
  match r.result with
  | .ok p =>
    match frameOfPulses p with
    | some f =>
      match decodeFrame t f with
      | .ok v => decide (v.config.proto = r.port.proto)
      | .error _ => false
    | none => false
  | .err e => decide (e = .badCommand) && decide (r.port.proto = .ext)

/-- The invariant: EXT_CODE is injective and every response delivered is valid. -/
def State.Inv (s : State) : Prop :=
  s.codes.injective = true ∧ ∀ r ∈ s.responses, r.valid s.codes = true

/-- The shapes of R64 that no operation ever emits, told by the bits of R53: mode 2 or 3 with escape 0, an SO frame with address 1,
a CPWM frame with bit 15 set, a CDIR frame with bit 15 or address 1, four nibbles that do not xor to 0xF. -/
def forbiddenFrame (f : Frame) : Bool :=
  (!f.getLsbD 14 && !f.getLsbD 10 && f.getLsbD 9) ||
  (!f.getLsbD 14 && f.getLsbD 10 && f.getLsbD 11) ||
  (f.getLsbD 14 && f.getLsbD 15) ||
  (!f.getLsbD 14 && decide (f.extractLsb' 8 3 = 1) && (f.getLsbD 15 || f.getLsbD 11)) ||
  decide (f.extractLsb' 12 4 ^^^ f.extractLsb' 8 4 ^^^ f.extractLsb' 4 4 ^^^ f.extractLsb' 0 4 ≠ (0xF : Nibble))

/-- How many bits of a frame are 1 (R80, R90). -/
def onesOf (f : Frame) : Nat := (List.range 16).countP fun j => f.getLsbD j

/-- The interface of the instance an operation is executed on in a state. -/
def portOf (i : Instr) (s : State) : Port := requestPort (i.toRequest s.sel)

/-- The responses delivered on one interface, oldest first. -/
def State.responsesOf (s : State) (p : Port) : List Response := s.responses.filter fun r => decide (r.port = p)

/-- The configurations of all instances, bank by bank (R18). -/
def State.configs (s : State) : List InstanceConfig :=
  s.so.map (fun i => .so i.ch i.out) ++ s.cpwm.map (fun i => .cpwm i.ch) ++ s.cdir.map (fun i => .cdir i.ch) ++
    s.ext.map (fun i => .ext i.ch)

/-- What one interface's operations can depend on: the instance's configuration and registers (R16, R42). -/
inductive InstanceView where
  | so (i : SoInstance)
  | cpwm (i : CpwmInstance)
  | cdir (i : CdirInstance)
  | ext (i : ExtInstance)
  deriving DecidableEq, Repr

/-- The instance at an interface, if it exists. -/
def State.view (s : State) : Port → Option InstanceView
  | .so k => (s.so[k]?).map .so
  | .cpwm k => (s.cpwm[k]?).map .cpwm
  | .cdir k => (s.cdir[k]?).map .cdir
  | .ext k => (s.ext[k]?).map .ext

end Sys2Proof.Machine
end

