-- ==== Sys2Proof/Certificates/Slice0/Obligations.lean ====
section
/-! DEFINITION. The statements, from the numbered rules of spec/ file by file. Each is a proposition about every state, operand or
frame it names; none is proved here. -/

open Sys2Proof Sys2Proof.Machine

/-! ## The quantizer (40_quantizer.md) -/

/-- R71, R75: 8 is kept, everything above it is 7 and never 8, everything below -7 is -7, the rest is unchanged; the clamp comes
before the negation, so the most negative port value gives 9. -/
def Obligations.ClampKeepsEightAndSaturates : Prop :=
  clamp 8 = 8 ∧
  (∀ s : Int, 8 < s → clamp s = 7 ∧ quantize s = 7) ∧
  (∀ s : Int, s < -7 → clamp s = -7 ∧ quantize s = 9) ∧
  (∀ s : Int, -7 ≤ s → s ≤ 7 → clamp s = s) ∧
  (∀ s : Int, quantize s = 8 ↔ s = 8) ∧
  clamp (BitVec.toInt (0x80 : Speed)) = -7 ∧ quantize (BitVec.toInt (0x80 : Speed)) = 9

/-- R73: QUANTIZE is CLAMP mod 16, the low four bits of the clamped speed in two's complement. -/
def Obligations.QuantizeIsLowNibbleOfClamp : Prop :=
  ∀ s : Int, (quantize s : Int) = clamp s % 16 ∧ BitVec.ofNat 4 (quantize s) = BitVec.ofInt 4 (clamp s) ∧
    (0 ≤ clamp s → (quantize s : Int) = clamp s) ∧ (clamp s < 0 → (quantize s : Int) = 16 - (clamp s).natAbs)

/-- R74: the two laws the source's idempotence sentence is read as, and its four equalities. -/
def Obligations.QuantizeAfterClampIsQuantize : Prop :=
  (∀ s : Int, clamp (clamp s) = clamp s ∧ quantize (clamp s) = quantize s) ∧
  quantize 9 = quantize 7 ∧ quantize 7 = 7 ∧ quantize (-8) = quantize (-7) ∧ quantize (-7) = 9 ∧
  quantize 0 = 0 ∧ quantize 8 = 8

/-- R72: the complete function on the 8-bit port, and that every nibble is the image of exactly one speed in -7..8. -/
def Obligations.QuantizeTableAndUniquePreimage : Prop :=
  (∀ s : Speed,
    (s.toInt ≤ -8 → clamp s.toInt = -7 ∧ quantize s.toInt = 9) ∧
    (-7 ≤ s.toInt → s.toInt ≤ -1 → clamp s.toInt = s.toInt ∧ (quantize s.toInt : Int) = 16 + s.toInt) ∧
    (0 ≤ s.toInt → s.toInt ≤ 8 → clamp s.toInt = s.toInt ∧ (quantize s.toInt : Int) = s.toInt) ∧
    (9 ≤ s.toInt → clamp s.toInt = 7 ∧ quantize s.toInt = 7)) ∧
  (∀ n : Nat, n < 16 → ∃ s : Int, -7 ≤ s ∧ s ≤ 8 ∧ quantize s = n ∧
    ∀ r : Int, -7 ≤ r → r ≤ 8 → quantize r = n → r = s)

/-! ## LRC, PACK, RENDER (41_packer_lrc_render.md) -/

/-- R79: in each of the source's three formulas the xor-ed terms are N1, N2 and N3 of that protocol's frame, so one LRC serves all. -/
def Obligations.SourceChecksumsAreOneLrc : Prop :=
  (∀ (t : Bit) (c : ChannelField) (m o : Bit) (d : Nibble),
    (soPattern t c m o d).extractLsb' 12 4 = t.setWidth 4 * (8 : Nibble) + c.setWidth 4 ∧
    (soPattern t c m o d).extractLsb' 8 4 = ((1 : Nibble) <<< 2) ||| (m.setWidth 4 <<< 1) ||| o.setWidth 4 ∧
    (soPattern t c m o d).extractLsb' 4 4 = d ∧
    (soPattern t c m o d).extractLsb' 0 4 =
      lrc ((soPattern t c m o d).extractLsb' 12 4) ((soPattern t c m o d).extractLsb' 8 4) d) ∧
  (∀ (c : ChannelField) (b a : Nibble),
    (cpwmPattern c b a).extractLsb' 12 4 = ((1 : Nibble) <<< 2) ||| c.setWidth 4 ∧
    (cpwmPattern c b a).extractLsb' 8 4 = b ∧ (cpwmPattern c b a).extractLsb' 4 4 = a ∧
    (cpwmPattern c b a).extractLsb' 0 4 = lrc ((cpwmPattern c b a).extractLsb' 12 4) b a) ∧
  (∀ (t e : Bit) (c : ChannelField) (a : Bit) (m : BitVec 3) (f : Nibble),
    (extPattern t e c a m f).extractLsb' 12 4 =
      t.setWidth 4 * (8 : Nibble) + e.setWidth 4 * (4 : Nibble) + c.setWidth 4 ∧
    (extPattern t e c a m f).extractLsb' 8 4 = a.setWidth 4 * (8 : Nibble) + m.setWidth 4 ∧
    (extPattern t e c a m f).extractLsb' 4 4 = f ∧
    (extPattern t e c a m f).extractLsb' 0 4 =
      lrc ((extPattern t e c a m f).extractLsb' 12 4) ((extPattern t e c a m f).extractLsb' 8 4) f)

/-- R82: PACK fails exactly when some value does not fit its width; the operation that called it then ends with
`Err(FieldOverflow)`, emits no pulse and writes no state. -/
def Obligations.FieldOverflowEndsTheOperation : Prop :=
  (∀ fl : FieldList, pack fl = .error .fieldOverflow ↔ ∃ f ∈ fl.fields, 2 ^ f.width ≤ f.value) ∧
  (∀ (fl : FieldList) (p : Port) (commit : State → State) (s : State), (∃ f ∈ fl.fields, 2 ^ f.width ≤ f.value) →
    deliver p (pack fl) commit s = .next { s with responses := s.responses ++ [⟨p, .err .fieldOverflow⟩] } ∧
    (Result.err .fieldOverflow).stream = [])

/-- R81: when every value fits, PACK gives a frame in which each field stands on its width at the place its position in the list
says, above the LRC nibble; and the three frame functions are PACK on the three field lists. -/
def Obligations.PackPlacesEveryField : Prop :=
  (∀ (fl : FieldList) (before after : List Field) (f : Field), fl.fields = before ++ f :: after →
    (∀ g ∈ fl.fields, g.value < 2 ^ g.width) →
    ∃ w, pack fl = .ok w ∧ w.toNat / 2 ^ (4 + (after.map Field.width).sum) % 2 ^ f.width = f.value ∧
      w.extractLsb' 0 4 = lrc (w.extractLsb' 12 4) (w.extractLsb' 8 4) (w.extractLsb' 4 4)) ∧
  (∀ (t : Bit) (c : ChannelField) (m o : Bit) (d : Nat), ∃ fl : FieldList, frameSo t c m o d = pack fl ∧
    fl.fields.map (fun f => (f.width, f.value)) =
      [(1, t.toNat), (1, 0), (2, c.toNat), (1, 0), (1, 1), (1, m.toNat), (1, o.toNat), (4, d)]) ∧
  (∀ (c : ChannelField) (b a : Nat), ∃ fl : FieldList, frameCpwm c b a = pack fl ∧
    fl.fields.map (fun f => (f.width, f.value)) = [(1, 0), (1, 1), (2, c.toNat), (4, b), (4, a)]) ∧
  (∀ (t e : Bit) (c : ChannelField) (a : Bit) (m : BitVec 3) (d : Nat), ∃ fl : FieldList, frameExt t e c a m d = pack fl ∧
    fl.fields.map (fun f => (f.width, f.value)) =
      [(1, t.toNat), (1, e.toNat), (2, c.toNat), (1, a.toNat), (3, m.toNat), (4, d)])

/-- R80: the nibbles xor to 0xF; every bit column holds an odd number of ones, so a frame has an even number, 4 to 12; flipping a field
bit flips the LRC bit of its column and nothing else. -/
def Obligations.FrameColumnsAreOdd : Prop :=
  (∀ (fl : FieldList) (w : Frame), pack fl = .ok w → ∃ b : Body, w = withLrc b) ∧
  (∀ b : Body,
    (withLrc b).extractLsb' 12 4 ^^^ (withLrc b).extractLsb' 8 4 ^^^ (withLrc b).extractLsb' 4 4 ^^^
      (withLrc b).extractLsb' 0 4 = (0xF : Nibble) ∧
    (∀ j, j < 4 →
      ([j, j + 4, j + 8, j + 12].countP fun n => (withLrc b).getLsbD n) = 1 ∨
      ([j, j + 4, j + 8, j + 12].countP fun n => (withLrc b).getLsbD n) = 3) ∧
    onesOf (withLrc b) % 2 = 0 ∧ 4 ≤ onesOf (withLrc b) ∧ onesOf (withLrc b) ≤ 12 ∧
    (∀ n, n < 12 → withLrc (b ^^^ ((1 : Body) <<< n)) =
      withLrc b ^^^ (((1 : Frame) <<< (n + 4)) ^^^ ((1 : Frame) <<< (n % 4)))))

/-- R85: every element of a rendering by its index, and each frame bit read back from its element. -/
def Obligations.RenderIndexForm : Prop :=
  ∀ f : Frame, (render f).length = 36 ∧
    (render f)[0]? = some 157 ∧ (render f)[1]? = some 1026 ∧
    (∀ k, k < 16 → (render f)[2 + 2 * k]? = some 157 ∧
      (render f)[3 + 2 * k]? = some (if f.getLsbD (15 - k) then 552 else 263)) ∧
    (render f)[34]? = some 157 ∧ (render f)[35]? = some 1026 ∧
    (∀ j, j < 16 → f.getLsbD j = decide ((render f)[33 - 2 * j]? = some 552)) ∧
    (∀ k, k < 18 → (render f)[2 * k]? = some 157)

/-- R86: every sequence has even length 36 and begins and ends with 157, 1026; RENDER is injective, and the reader finds exactly the
frame that was rendered. -/
def Obligations.RenderShapeAndInjective : Prop :=
  (∀ f : Frame, (render f).length % 2 = 0 ∧ (render f).length = 36 ∧ (render f).take 2 = [157, 1026] ∧
    (render f).drop 34 = [157, 1026] ∧ frameOfPulses (render f) = some f) ∧
  (∀ f g : Frame, render f = render g → f = g) ∧
  (∀ (p : PulseSeq) (f : Frame), frameOfPulses p = some f → p = render f)

/-- R90: the time on the air of a frame, and its bounds for the frames PACK makes. -/
def Obligations.AirTimeOfAFrame : Prop :=
  (∀ f : Frame, totalUs (render f) = 2 * (157 + 1026) + 16 * 157 + 263 * (16 - onesOf f) + 552 * onesOf f) ∧
  (∀ (fl : FieldList) (w : Frame), pack fl = .ok w → 10242 ≤ totalUs (render w) ∧ totalUs (render w) ≤ 12554)

/-- R8, R34, R87, R88: the durations are the unit counts rounded toward zero, and all four protocols share carrier, duty cycle and
timing. -/
def Obligations.WaveformConstantsAgree : Prop :=
  markUs.toNat = markUnits * 1000000 / carrierHz ∧ zeroUs.toNat = zeroUnits * 1000000 / carrierHz ∧
  oneUs.toNat = oneUnits * 1000000 / carrierHz ∧ gapUs.toNat = gapUnits * 1000000 / carrierHz ∧
  (∀ p : Proto, (waveformSpec p).carrierHz = 38000 ∧ (waveformSpec p).dutyPercent = 33 ∧ (waveformSpec p).markUs = 157 ∧
    (waveformSpec p).zeroUs = 263 ∧ (waveformSpec p).oneUs = 552 ∧ (waveformSpec p).gapUs = 1026 ∧
    ((waveformSpec p).layout.map Prod.snd).sum = 12)

/-! ## Encodings (30_encoding.md) -/

/-- R53, R54: reading back the frame of any well-formed reading gives that reading: configuration, T, A and the operation with every
operand, for every injective EXT_CODE. That a reading's speed is the clamped one is log entry 11 (DEDUCED). -/
def Obligations.FrameDecodesToItsReading : Prop :=
  ∀ (t : ExtCode) (v : FrameView), t.injective = true → v.wf = true → decodeFrame t (encodeFrame t v) = .ok v

/-- R53, R64: every 16-bit value the frame decoder accepts is the frame of the well-formed reading it answers. -/
def Obligations.AcceptedFrameIsItsEncoding : Prop :=
  ∀ (t : ExtCode) (f : Frame) (v : FrameView), decodeFrame t f = .ok v → encodeFrame t v = f ∧ v.wf = true

/-- R66: a word belongs to a row of the opcode table exactly when the decoder reads that row's operation from it. The table's EXT rows
are under the default EXT_CODE (log entry 4, PRESUMED), and its masks leave the LRC bits free (log entry 7, DEDUCED). -/
def Obligations.DecoderFollowsTheOpcodeTable : Prop :=
  ∀ (w : Frame) (row : OpcodeRow), row ∈ opcodeTable →
    (w &&& row.mask = row.bits ↔ (decodeTableWord 16 w.toNat).map Instr.mnemonic = some row.mnemonic)

/-- R64: an operation of any protocol on an existing instance completes, and the frame it emits has none of the forbidden shapes. -/
def Obligations.NoOperationEmitsAForbiddenFrame : Prop :=
  ∀ (i : Instr) (s : State), s.has (portOf i s) = true →
    ∃ (t : State) (f : Frame), exec i s = .next t ∧ t.responses = s.responses ++ [⟨portOf i s, .ok (render f)⟩] ∧
      forbiddenFrame f = false

/-- A few words written out from the patterns (30_encoding.md R49 to R51), EXT ones under the default EXT_CODE (log entry 4). -/
def Obligations.WrittenOutFramesDecode : Prop :=
  decodeFrame ExtCode.standard 0b0000010001011110 = .ok ⟨.so 0 0, 0, 0, .soPwm 5⟩ ∧
  decodeFrame ExtCode.standard 0b1001011110111010 = .ok ⟨.so 1 1, 1, 0, .soDisc 0xB⟩ ∧
  decodeFrame ExtCode.standard 0b0111100011111111 = .ok ⟨.cpwm 3, 0, 0, .cpwm (-1) 8⟩ ∧
  decodeFrame ExtCode.standard 0b0000000100011111 = .ok ⟨.cdir 0, 0, 0, .cdir .forward .float⟩ ∧
  decodeFrame ExtCode.standard 0b1010100001111010 = .ok ⟨.ext 2, 1, 1, .extAln⟩

/-- R65's table: what each command record stands for; the field a record ignores has no influence, and xcmd 6 and 7 alone name nothing.
The DirectState codes are the table of R59, Float 0b00, Forward 0b01, Backward 0b10, Brake 0b11; the last two are the spec's own
completion of the source's listing order (D8; log entry 12, UNVERIFIED). -/
def Obligations.CommandRecordsNameOperations : Prop :=
  (∀ (k : Nat) (s : Speed) (d : Nibble), (Request.so k ⟨0, s, d⟩).decode = .ok (.soPwm s) ∧
    (Request.so k ⟨1, s, d⟩).decode = .ok (.soDisc d)) ∧
  (∀ (k : Nat) (r b : Speed), (Request.cpwm k ⟨r, b⟩).decode = .ok (.cpwm r b)) ∧
  (∀ (k : Nat) (r b : DirectState), (Request.cdir k ⟨r.code, b.code⟩).decode = .ok (.cdir r b)) ∧
  (DirectState.float.code = 0b00 ∧ DirectState.forward.code = 0b01 ∧ DirectState.backward.code = 0b10 ∧
    DirectState.brake.code = 0b11) ∧
  (∀ c : BitVec 2, (DirectState.ofCode c).code = c) ∧
  (∀ k : Nat, (Request.ext k ⟨0⟩).decode = .ok .extBrk ∧ (Request.ext k ⟨1⟩).decode = .ok .extInc ∧
    (Request.ext k ⟨2⟩).decode = .ok .extDec ∧ (Request.ext k ⟨3⟩).decode = .ok .extTgf ∧
    (Request.ext k ⟨4⟩).decode = .ok .extTga ∧ (Request.ext k ⟨5⟩).decode = .ok .extAln ∧
    (Request.ext k ⟨6⟩).decode = .error .badCommand ∧ (Request.ext k ⟨7⟩).decode = .error .badCommand) ∧
  (∀ r : Request, r.legal = true ↔ ∃ i, r.decode = .ok i)

/-! ## The operations (42 to 45): result, frame and completion in one equation -/

/-- R92: SO.PWM on an existing instance completes: the frame has mode 0, D = QUANTIZE(s) and the T from before; T of that instance flips;
the one response is the rendering; nothing else changes. -/
def Obligations.SoPwmResult : Prop :=
  ∀ (speed : Speed) (s : State) (i : SoInstance), s.so[s.sel]? = some i →
    exec (.soPwm speed) s = .next { s with
      so := s.so.set s.sel { i with t := 1 - i.t }
      responses := s.responses ++
        [⟨.so s.sel, .ok (render (soPattern i.t i.ch 0 i.out (BitVec.ofNat 4 (quantize speed.toInt))))⟩] }

/-- R93: SO.DISC on an existing instance completes: mode 1, D = the code, the current T; the response is appended and nothing else
changes, T included. -/
def Obligations.SoDiscResult : Prop :=
  ∀ (code : Nibble) (s : State) (i : SoInstance), s.so[s.sel]? = some i →
    exec (.soDisc code) s = .next { s with
      responses := s.responses ++ [⟨.so s.sel, .ok (render (soPattern i.t i.ch 1 i.out code))⟩] }

/-- R99: CPWM on an existing instance completes: B = QUANTIZE(blue) above A = QUANTIZE(red); only the response is appended. -/
def Obligations.CpwmResult : Prop :=
  ∀ (red blue : Speed) (s : State) (i : CpwmInstance), s.cpwm[s.sel]? = some i →
    exec (.cpwm red blue) s = .next { s with
      responses := s.responses ++ [⟨.cpwm s.sel, .ok (render (cpwmPattern i.ch (BitVec.ofNat 4 (quantize blue.toInt))
        (BitVec.ofNat 4 (quantize red.toInt))))⟩] }

/-- R103: CDIR on an existing instance completes: T = 0, E = 0, a = 0, M = 1, blue's code above red's; only the response is appended. -/
def Obligations.CdirResult : Prop :=
  ∀ (red blue : DirectState) (s : State) (i : CdirInstance), s.cdir[s.sel]? = some i →
    exec (.cdir red blue) s = .next { s with
      responses := s.responses ++ [⟨.cdir s.sel, .ok (render (extPattern 0 0 i.ch 0 1 (blue.code ++ red.code)))⟩] }

/-- R107: each of the six EXT operations on an existing instance completes with its own function code, T and A as they were in the
frame, T flipped, A flipped by ToggleAddress only, and nothing else changed; a selector of 6 or 7 answers BadCommand with no state
change. For every EXT_CODE. -/
def Obligations.ExtendedCommonBody : Prop :=
  (∀ (s : State) (i : ExtInstance), s.ext[s.sel]? = some i →
    let done := fun (c : ExtCommand) (a' : Bit) => (Host.Outcome.next { s with
      ext := s.ext.set s.sel { i with t := 1 - i.t, a := a' }
      responses := s.responses ++ [⟨.ext s.sel, .ok (render (extPattern i.t 0 i.ch i.a 0 (s.codes.code c)))⟩] } :
      Host.Outcome State Fault Refusal)
    exec .extBrk s = done .brakeThenFloat i.a ∧ exec .extInc s = done .incrementSpeed i.a ∧
    exec .extDec s = done .decrementSpeed i.a ∧ exec .extTgf s = done .toggleForwardOrFloat i.a ∧
    exec .extTga s = done .toggleAddress (1 - i.a) ∧ exec .extAln s = done .alignToggle i.a) ∧
  (∀ (s : State) (k : Nat) (cmd : ExtCmd) (rest : List HostEvent), s.pending = .command (.ext k cmd) :: rest →
    s.has (.ext k) = true → 6 ≤ cmd.xcmd.toNat →
    step s = .next { s with pending := rest, responses := s.responses ++ [⟨.ext k, .err .badCommand⟩] })

/-- R108 to R113, the examples, each under the default EXT_CODE (log entry 4): a fresh channel-One instance, its frame, T and A
afterwards, and the second EXT.TGA of R112. -/
def Obligations.ExtendedExamples : Prop :=
  ∀ (s : State), s.ext[s.sel]? = some ⟨0, 0, 0⟩ → s.codes = ExtCode.standard →
    let done := fun (f : Frame) (a' : Bit) => (Host.Outcome.next { s with
      ext := s.ext.set s.sel ⟨0, 1, a'⟩, responses := s.responses ++ [⟨.ext s.sel, .ok (render f)⟩] } :
      Host.Outcome State Fault Refusal)
    exec .extBrk s = done 0x000F 0 ∧ exec .extInc s = done 0x001E 0 ∧ exec .extDec s = done 0x002D 0 ∧
    exec .extTgf s = done 0x004B 0 ∧ exec .extTga s = done 0x0069 1 ∧ exec .extAln s = done 0x0078 0 ∧
    (∀ t, exec .extTga s = .next t → ∃ u, exec .extTga t = .next u ∧ u.ext = s.ext ∧
      u.responses = t.responses ++ [⟨.ext s.sel, .ok (render 0x8869)⟩])

/-- R95: two SO.PWM of the same speed on an instance with T = 0 give frames that differ in bits 15 and 3 only, so the sequences differ at
elements 3 and 27 only; element 3 is 263, then 552. -/
def Obligations.ConsecutivePwmDifferInToggleAndLrc : Prop :=
  ∀ (speed : Speed) (s : State) (i : SoInstance), s.so[s.sel]? = some i → i.t = 0 →
    ∃ (t u : State) (f g : Frame), exec (.soPwm speed) s = .next t ∧ exec (.soPwm speed) t = .next u ∧
      u.responses = s.responses ++ [⟨.so s.sel, .ok (render f)⟩, ⟨.so s.sel, .ok (render g)⟩] ∧
      f ^^^ g = 0x8008 ∧ (∀ n : Nat, (render f)[n]? ≠ (render g)[n]? ↔ n = 3 ∨ n = 27) ∧
      (render f)[3]? = some 263 ∧ (render g)[3]? = some 552

/-- R96: the same discrete code twice gives the same sequence, and T never advances: two SO.DISC in a row, and two SO.DISC records with
any actions of the host between them (other codes, commands to other instances, sends, constructions, resets of other instances) but
an SO.PWM on this instance and the end of its lifetime, which is its reset or power-off (R17). -/
def Obligations.ConsecutiveDiscreteAreIdentical : Prop :=
  (∀ (code : Nibble) (s : State) (i : SoInstance), s.so[s.sel]? = some i →
    ∃ (t u : State) (p : PulseSeq), exec (.soDisc code) s = .next t ∧ exec (.soDisc code) t = .next u ∧
      u.responses = s.responses ++ [⟨.so s.sel, .ok p⟩, ⟨.so s.sel, .ok p⟩] ∧ t.so = s.so ∧ u.so = s.so) ∧
  (∀ (code : Nibble) (v w : Speed) (s : State) (k : Nat) (i : SoInstance) (between rest : List HostEvent),
    s.so[k]? = some i →
    (∀ (speed : Speed) (d : Nibble), .command (.so k ⟨0, speed, d⟩) ∉ between) →
    .reset (.so k) ∉ between → .powerOff ∉ between →
    (∀ r : Request, .command r ∈ between → s.has (requestPort r) = true) →
    (∀ q : Port, .reset q ∈ between → s.has q = true) →
    s.pending = .command (.so k ⟨1, v, code⟩) :: (between ++ .command (.so k ⟨1, w, code⟩) :: rest) →
    ∃ (t : State) (p : PulseSeq) (middle : List Response), core.run (between.length + 2) s = .next t ∧
      t.pending = rest ∧ t.so[k]? = some i ∧
      t.responses = s.responses ++ [⟨.so k, .ok p⟩] ++ middle ++ [⟨.so k, .ok p⟩])

/-- R115: the same non-ToggleAddress command twice gives frames that differ in bits 15 and 3 only, so the sequences differ at elements
3 and 27 only. The example, EXT.BRK twice on a fresh channel-One instance giving 0x000F, then 0x8007, is under the default EXT_CODE
(log entry 4, PRESUMED). -/
def Obligations.ConsecutiveExtendedDifferInToggleAndLrc : Prop :=
  ∀ (c : ExtCommand) (s : State) (i : ExtInstance), c ≠ .toggleAddress → s.ext[s.sel]? = some i →
    ∃ (t u : State) (f g : Frame), exec c.instr s = .next t ∧ exec c.instr t = .next u ∧
      u.responses = s.responses ++ [⟨.ext s.sel, .ok (render f)⟩, ⟨.ext s.sel, .ok (render g)⟩] ∧
      f ^^^ g = 0x8008 ∧ (∀ n : Nat, (render f)[n]? ≠ (render g)[n]? ↔ n = 3 ∨ n = 27) ∧
      (c = .brakeThenFloat → i = ⟨0, 0, 0⟩ → s.codes = ExtCode.standard → f = 0x000F ∧ g = 0x8007)

/-- R116: two EXT.TGA lead from (T, A) through (1 - T, 1 - A) back to (T, A); the two frames differ in bits 15 and 11 and their LRC nibbles
are equal. -/
def Obligations.ToggleAddressTwiceRestores : Prop :=
  ∀ (s : State) (i : ExtInstance), s.ext[s.sel]? = some i →
    ∃ (t u : State) (f g : Frame), exec .extTga s = .next t ∧ exec .extTga t = .next u ∧
      t.ext = s.ext.set s.sel { i with t := 1 - i.t, a := 1 - i.a } ∧ u.ext = s.ext ∧
      u.responses = s.responses ++ [⟨.ext s.sel, .ok (render f)⟩, ⟨.ext s.sel, .ok (render g)⟩] ∧
      f ^^^ g = 0x8800 ∧ f.extractLsb' 0 4 = g.extractLsb' 0 4

/-- R100, R104: CPWM depends on its instance's channel and the clamped speeds alone, CDIR on its channel and the two states alone: in any
two states, whatever was executed before, the sequences are the same, and no instance changes. -/
def Obligations.StatelessProtocolsAreFunctions : Prop :=
  (∀ (s s' : State) (i : CpwmInstance) (r b r' b' : Speed), s.cpwm[s.sel]? = some i → s'.cpwm[s'.sel]? = some i →
    clamp r.toInt = clamp r'.toInt → clamp b.toInt = clamp b'.toInt →
    ∃ (t t' : State) (p : PulseSeq), exec (.cpwm r b) s = .next t ∧ exec (.cpwm r' b') s' = .next t' ∧
      t = { s with responses := s.responses ++ [⟨.cpwm s.sel, .ok p⟩] } ∧
      t' = { s' with responses := s'.responses ++ [⟨.cpwm s'.sel, .ok p⟩] }) ∧
  (∀ (s s' : State) (i : CdirInstance) (r b : DirectState), s.cdir[s.sel]? = some i → s'.cdir[s'.sel]? = some i →
    ∃ (t t' : State) (f : Frame), exec (.cdir r b) s = .next t ∧ exec (.cdir r b) s' = .next t' ∧
      t = { s with responses := s.responses ++ [⟨.cdir s.sel, .ok (render f)⟩] } ∧
      t' = { s' with responses := s'.responses ++ [⟨.cdir s'.sel, .ok (render f)⟩] } ∧ f.getLsbD 15 = false)

/-- R97, R101, R105, R83: every operation on an existing instance succeeds: it completes with one `Ok` response of 36 elements on that
instance's interface, and can never answer FieldOverflow. -/
def Obligations.EveryOperationSucceeds : Prop :=
  ∀ (i : Instr) (s : State), s.has (portOf i s) = true →
    ∃ (t : State) (p : PulseSeq), exec i s = .next t ∧ p.length = 36 ∧
      t.responses = s.responses ++ [⟨portOf i s, .ok p⟩] ∧ t.pending = s.pending ∧ t.sends = s.sends ∧ t.sel = s.sel ∧
      (portOf i s).proto = i.proto

/-! ## Errors and responses (60_exceptions.md, 20_memory.md) -/

/-- R121: a selector of 6 or 7 is the only illegal command-port value: it answers BadCommand, with no pulse and no register written; every
other record on an existing instance runs the operation it names. -/
def Obligations.BadCommandIsTheOnlyIllegalRecord : Prop :=
  (∀ (s : State) (r : Request) (rest : List HostEvent), s.pending = .command r :: rest →
    s.has (requestPort r) = true → r.legal = false →
    (∃ (k : Nat) (cmd : ExtCmd), r = .ext k cmd ∧ (cmd.xcmd = 6 ∨ cmd.xcmd = 7)) ∧
    step s = .next { s with pending := rest, responses := s.responses ++ [⟨requestPort r, .err .badCommand⟩] } ∧
    (Result.err .badCommand).stream = []) ∧
  (∀ r : Request, r.legal = false ↔ ∃ (k : Nat) (cmd : ExtCmd), r = .ext k cmd ∧ (cmd.xcmd = 6 ∨ cmd.xcmd = 7))

/-- R31, R127: an accepted command yields exactly one response, on its own interface: status 0 and 36 elements for a legal record, an
error status and no element for an illegal one. -/
def Obligations.EveryCommandIsAnsweredOnce : Prop :=
  ∀ (s : State) (r : Request) (rest : List HostEvent), s.pending = .command r :: rest → s.has (requestPort r) = true →
    ∃ (t : State) (res : Result), step s = .next t ∧ t.pending = rest ∧
      t.responses = s.responses ++ [⟨requestPort r, res⟩] ∧
      (r.legal = true → ∃ f : Frame, res = .ok (render f) ∧ res.status = 0 ∧ res.stream.length = 36) ∧
      (r.legal = false → res = .err .badCommand ∧ res.status = 2 ∧ res.stream = [])

/-- R120, R33: the status codes, and the pulse stream: the elements in index order, `last` with the final one only. -/
def Obligations.StatusAndPulseStream : Prop :=
  (∀ p : PulseSeq, (Result.ok p).status = 0) ∧ (Result.err .fieldOverflow).status = 1 ∧
  (Result.err .badCommand).status = 2 ∧
  (∀ p : PulseSeq, (Result.ok p).stream.map Beat.data = p ∧
    ∀ (n : Nat) (b : Beat), (Result.ok p).stream[n]? = some b → (b.last = true ↔ n + 1 = p.length))

/-- The machine has no fault, and a step stops only where the command or reset is for an instance that does not exist (log entry 9). -/
def Obligations.StepStopsOnlyOnAbsentInstance : Prop :=
  ∀ s : State, (∃ t, step s = .next t) ∨
    (step s = .refused .noSuchInstance ∧ ∃ (e : HostEvent) (rest : List HostEvent), s.pending = e :: rest ∧
      ((∃ p, e = .reset p ∧ s.has p = false) ∨ (∃ r, e = .command r ∧ s.has (requestPort r) = false)))

/-! ## The step and the host's actions (70_reset_and_hazards.md, 20_memory.md) -/

/-- A step on a pending command whose record names an operation is `exec` of that operation on the instance it was presented to,
the command taken off the list (R29, R42). That a step with nothing pending answers the same state is the model's choice, read from
the spec by inference (log entry 8, DEDUCED). -/
def Obligations.StepRunsTheNamedOperation : Prop :=
  (∀ (s : State) (r : Request) (rest : List HostEvent) (i : Instr), s.pending = .command r :: rest → r.decode = .ok i →
    s.has (requestPort r) = true → step s = exec i { s with pending := rest, sel := r.index }) ∧
  (∀ s : State, s.pending = [] → step s = .next s)

/-- The step on an opcode-table word placed by `withFetchWord` runs, and completes, the operation the decoder reads from it, on an
instance of the word's configuration; everything pending before is pending still (log entry 6). -/
def Obligations.PlacedTableWordRunsNext : Prop :=
  ∀ (s : State) (w : Nat) (i : Instr), decodeTableWord 16 w = some i →
    ∃ (v : FrameView) (u t : State), tableView 16 w = some v ∧ v.op = i ∧
      step (s.withFetchWord 16 w) = exec i u ∧ exec i u = .next t ∧ u.pending = s.pending ∧ u.responses = s.responses ∧
      u.codes = s.codes ∧ u.sends = s.sends ∧
      (match v.config with
        | .so ch out => ∃ x : Bit, u.so[u.sel]? = some ⟨ch, out, x⟩
        | .cpwm ch => u.cpwm[u.sel]? = some ⟨ch⟩
        | .cdir ch => u.cdir[u.sel]? = some ⟨ch⟩
        | .ext ch => ∃ x y : Bit, u.ext[u.sel]? = some ⟨ch, x, y⟩)

/-- R137: resetting an instance begins a new lifetime with the same configuration: its registers are 0 and nothing else changes. -/
def Obligations.ResetClearsRegistersKeepsConfiguration : Prop :=
  (∀ (s : State) (k : Nat) (rest : List HostEvent) (i : SoInstance), s.pending = .reset (.so k) :: rest →
    s.so[k]? = some i → step s = .next { s with pending := rest, so := s.so.set k { i with t := 0 } }) ∧
  (∀ (s : State) (k : Nat) (rest : List HostEvent) (i : ExtInstance), s.pending = .reset (.ext k) :: rest →
    s.ext[k]? = some i → step s = .next { s with pending := rest, ext := s.ext.set k { i with t := 0, a := 0 } }) ∧
  (∀ (s : State) (k : Nat) (rest : List HostEvent) (i : CpwmInstance), s.pending = .reset (.cpwm k) :: rest →
    s.cpwm[k]? = some i → step s = .next { s with pending := rest }) ∧
  (∀ (s : State) (k : Nat) (rest : List HostEvent) (i : CdirInstance), s.pending = .reset (.cdir k) :: rest →
    s.cdir[k]? = some i → step s = .next { s with pending := rest })

/-- R138: T and A are 0 after construction, in the state after reset and in every instance a host constructs later; CPWM and CDIR
instances have nothing to reset. Which instances the reset state has, and that a constructed one is appended to its bank, is the
model's choice (log entries 2 and 19, DESIGN CHOICE). -/
def Obligations.RegistersAreZeroAfterConstruction : Prop :=
  (∀ i ∈ State.reset.so, i.t = 0) ∧ (∀ i ∈ State.reset.ext, i.t = 0 ∧ i.a = 0) ∧
  (∀ (s : State) (rest : List HostEvent) (c : InstanceConfig), s.pending = .construct c :: rest →
    step s = .next (match c with
      | .so ch out => { s with pending := rest, so := s.so ++ [⟨ch, out, 0⟩] }
      | .cpwm ch => { s with pending := rest, cpwm := s.cpwm ++ [⟨ch⟩] }
      | .cdir ch => { s with pending := rest, cdir := s.cdir ++ [⟨ch⟩] }
      | .ext ch => { s with pending := rest, ext := s.ext ++ [⟨ch, 0, 0⟩] }))

/-- R133 and log entry 2 (DESIGN CHOICE): the state after reset has each (protocol, channel[, output]) combination exactly once. -/
def Obligations.ResetHasTheFullComplement : Prop :=
  State.reset.configs.Nodup ∧ State.reset.configs.length = 20 ∧ ∀ c : InstanceConfig, c ∈ State.reset.configs

/-- After power-off no instance is left, and EXT_CODE, the selected index and the host's records (responses, sends, the actions still
pending) survive. The spec says that every lifetime ends and that no state survives (R17, R136); that no instance remains and that
these fields do is the model's deduction (log entry 14, DEDUCED). -/
def Obligations.PowerOffEndsEveryLifetime : Prop :=
  ∀ (s : State) (rest : List HostEvent), s.pending = .powerOff :: rest →
    ∃ t, step s = .next t ∧ (∀ p : Port, t.view p = none) ∧ t.codes = s.codes ∧ t.responses = s.responses ∧
      t.sends = s.sends ∧ t.sel = s.sel ∧ t.pending = rest

/-- R124, R47: a `send`, whatever its outcome, is passed to the host and changes no instance. The host's record of it, `sends`, is a
field of the model's own (log entries 5 and 13). -/
def Obligations.SendChangesNoInstance : Prop :=
  ∀ (s : State) (p : PulseSeq) (o : SendOutcome) (rest : List HostEvent), s.pending = .send p o :: rest →
    step s = .next { s with pending := rest, sends := s.sends ++ [⟨p, o⟩] }

/-- R145, R47: when a `send` ends, failed or not, the flips of the operation before it stand (T for SO.PWM and for every EXT operation,
A too for EXT.TGA), and the same command re-issued carries the flipped values: the frames differ in bits 15 and 3, those of EXT.TGA
in bits 15 and 11. -/
def Obligations.ToggleAdvancesDespiteFailedSend : Prop :=
  (∀ (s : State) (k : Nat) (i : SoInstance) (speed : Speed) (d : Nibble) (p : PulseSeq) (o : SendOutcome)
    (rest : List HostEvent), s.so[k]? = some i →
    s.pending = .command (.so k ⟨0, speed, d⟩) :: .send p o :: .command (.so k ⟨0, speed, d⟩) :: rest →
    ∃ (u t : State) (f g : Frame), core.run 2 s = .next u ∧ core.run 3 s = .next t ∧
      u.so = s.so.set k { i with t := 1 - i.t } ∧ u.sends = s.sends ++ [⟨p, o⟩] ∧
      t.pending = rest ∧ t.so = s.so ∧
      t.responses = s.responses ++ [⟨.so k, .ok (render f)⟩, ⟨.so k, .ok (render g)⟩] ∧ f ^^^ g = 0x8008 ∧
      f.getLsbD 15 = decide (i.t = 1)) ∧
  (∀ (s : State) (k : Nat) (i : ExtInstance) (x : BitVec 3) (p : PulseSeq) (o : SendOutcome)
    (rest : List HostEvent), s.ext[k]? = some i → x.toNat ≤ 5 →
    s.pending = .command (.ext k ⟨x⟩) :: .send p o :: .command (.ext k ⟨x⟩) :: rest →
    ∃ (u t : State) (f g : Frame), core.run 2 s = .next u ∧ core.run 3 s = .next t ∧
      u.ext = s.ext.set k { i with t := 1 - i.t, a := if x = 4 then 1 - i.a else i.a } ∧
      u.sends = s.sends ++ [⟨p, o⟩] ∧ t.pending = rest ∧ t.ext = s.ext ∧
      t.responses = s.responses ++ [⟨.ext k, .ok (render f)⟩, ⟨.ext k, .ok (render g)⟩] ∧
      f ^^^ g = (if x = 4 then 0x8800 else 0x8008) ∧
      f.getLsbD 15 = decide (i.t = 1) ∧ f.getLsbD 11 = decide (i.a = 1))

/-! ## Invariants and whole-machine rules -/

/-- R64, R80, R86, R121, R122: every step from a state whose EXT_CODE is injective and whose responses are all valid gives such a state:
every `Ok` is the rendering of a frame that decodes for its protocol, every `Err` is BadCommand from an EXT interface. -/
def Obligations.EveryStepKeepsResponsesValid : Prop :=
  ∀ s t : State, s.Inv → step s = .next t → t.Inv

/-- The invariant holds after reset, with the default EXT_CODE (log entry 4). -/
def Obligations.ResetMeetsTheInvariant : Prop := State.reset.Inv

/-- R18, R26: EXT_CODE never changes, and no operation, reset or send changes a configuration. That these parameters of the spec stand in
State is the model's choice (log entry 3, DESIGN CHOICE). -/
def Obligations.ConfigurationNeverChanges : Prop :=
  ∀ s t : State, step s = .next t → t.codes = s.codes ∧
    ((∀ c rest, s.pending ≠ .construct c :: rest) → (∀ rest, s.pending ≠ .powerOff :: rest) → t.configs = s.configs)

/-- R14, R15, R139: whatever a step does, a register of an instance that is there before and after it has changed only by the flip of an
operation presented to that very instance (SO.PWM for T of SO; any legal command for T of EXT, EXT.TGA alone for A) or by that
instance's reset. -/
def Obligations.RegistersChangeOnlyByFlipOrReset : Prop :=
  ∀ s t : State, step s = .next t →
    (∀ (k : Nat) (i j : SoInstance), s.so[k]? = some i → t.so[k]? = some j →
      j = i ∨
      (j = { i with t := 1 - i.t } ∧ ∃ speed code rest, s.pending = .command (.so k ⟨0, speed, code⟩) :: rest) ∨
      (j = { i with t := 0 } ∧ ∃ rest, s.pending = .reset (.so k) :: rest)) ∧
    (∀ (k : Nat) (i j : ExtInstance), s.ext[k]? = some i → t.ext[k]? = some j →
      j = i ∨
      (∃ x rest, s.pending = .command (.ext k ⟨x⟩) :: rest ∧ x.toNat ≤ 5 ∧
        j = { i with t := 1 - i.t, a := if x = 4 then 1 - i.a else i.a }) ∨
      (j = { i with t := 0, a := 0 } ∧ ∃ rest, s.pending = .reset (.ext k) :: rest))

/-- R16, R43: a command changes the registers of no other instance and answers on no other interface. -/
def Obligations.CommandLeavesOtherInstancesAlone : Prop :=
  ∀ (s t : State) (r : Request) (rest : List HostEvent) (q : Port), s.pending = .command r :: rest →
    step s = .next t → q ≠ requestPort r → t.view q = s.view q ∧ t.responsesOf q = s.responsesOf q

/-- R16, R42: the response to a command and the registers it leaves depend on the addressed instance, the command and EXT_CODE alone:
two states that agree on these, and on nothing else, answer alike. -/
def Obligations.ResponseDependsOnOwnInstanceOnly : Prop :=
  ∀ (s s' : State) (r : Request) (rest rest' : List HostEvent), s.pending = .command r :: rest →
    s'.pending = .command r :: rest' → s.codes = s'.codes → s.view (requestPort r) = s'.view (requestPort r) →
    s.has (requestPort r) = true →
    ∃ (t t' : State) (res : Response), step s = .next t ∧ step s' = .next t' ∧
      t.responses = s.responses ++ [res] ∧ t'.responses = s'.responses ++ [res] ∧
      t.view (requestPort r) = t'.view (requestPort r)

/-- R43: commands to different instances commute: in either order every instance ends in the same state and every interface has given the
same responses. -/
def Obligations.DistinctInstancesCommute : Prop :=
  ∀ (s : State) (q r : Request) (rest : List HostEvent), requestPort q ≠ requestPort r →
    s.has (requestPort q) = true → s.has (requestPort r) = true →
    ∃ t t' : State,
      core.run 2 { s with pending := .command q :: .command r :: rest } = .next t ∧
      core.run 2 { s with pending := .command r :: .command q :: rest } = .next t' ∧
      t.so = t'.so ∧ t.cpwm = t'.cpwm ∧ t.cdir = t'.cdir ∧ t.ext = t'.ext ∧ t.pending = t'.pending ∧
      ∀ p : Port, t.responsesOf p = t'.responsesOf p

/-- R94: after any sequence of commands to one SO instance its T has advanced by the number of SO.PWM among them, modulo 2, every command
has been answered, and nothing else has changed. -/
def Obligations.SoToggleCountsPwmCommands : Prop :=
  ∀ (cmds : List SoCmd) (s : State) (k : Nat) (i : SoInstance) (rest : List HostEvent), s.so[k]? = some i →
    s.pending = cmds.map (fun c => .command (.so k c)) ++ rest →
    ∃ t : State, core.run cmds.length s = .next t ∧ t.pending = rest ∧
      t.so = s.so.set k { i with t := i.t + BitVec.ofNat 1 (cmds.countP fun c => decide (c.kind = 0)) } ∧
      t.cpwm = s.cpwm ∧ t.cdir = s.cdir ∧ t.ext = s.ext ∧ t.codes = s.codes ∧
      t.responses.length = s.responses.length + cmds.length

/-- R114: after any sequence of commands to one EXT instance, illegal ones among them, its T has advanced by the number of legal ones and
its A by the number of EXT.TGA, modulo 2; a failed operation leaves both. -/
def Obligations.ExtRegistersCountCommands : Prop :=
  ∀ (cmds : List ExtCmd) (s : State) (k : Nat) (i : ExtInstance) (rest : List HostEvent), s.ext[k]? = some i →
    s.pending = cmds.map (fun c => .command (.ext k c)) ++ rest →
    ∃ t : State, core.run cmds.length s = .next t ∧ t.pending = rest ∧
      t.ext = s.ext.set k { i with
        t := i.t + BitVec.ofNat 1 (cmds.countP fun c => decide (c.xcmd.toNat ≤ 5))
        a := i.a + BitVec.ofNat 1 (cmds.countP fun c => decide (c.xcmd = 4)) } ∧
      t.so = s.so ∧ t.cpwm = s.cpwm ∧ t.cdir = s.cdir ∧ t.codes = s.codes ∧
      t.responses.length = s.responses.length + cmds.length
end

