-- ==== Sys2Proof/Laws/State.lean ====
section
/-! SUPPORT. One lemma per field per update of State, so that no proof unfolds a record update. -/

namespace Sys2Proof.Machine

/-! Writing T of the selected SO instance changes that register only. -/

@[simp] theorem setSoT_codes (s : State) (v : Bit) : (s.setSoT v).codes = s.codes := rfl
@[simp] theorem setSoT_so (s : State) (v : Bit) : (s.setSoT v).so = s.so.modify s.sel fun i => { i with t := v } := rfl
@[simp] theorem setSoT_cpwm (s : State) (v : Bit) : (s.setSoT v).cpwm = s.cpwm := rfl
@[simp] theorem setSoT_cdir (s : State) (v : Bit) : (s.setSoT v).cdir = s.cdir := rfl
@[simp] theorem setSoT_ext (s : State) (v : Bit) : (s.setSoT v).ext = s.ext := rfl
@[simp] theorem setSoT_sel (s : State) (v : Bit) : (s.setSoT v).sel = s.sel := rfl
@[simp] theorem setSoT_pending (s : State) (v : Bit) : (s.setSoT v).pending = s.pending := rfl
@[simp] theorem setSoT_responses (s : State) (v : Bit) : (s.setSoT v).responses = s.responses := rfl
@[simp] theorem setSoT_sends (s : State) (v : Bit) : (s.setSoT v).sends = s.sends := rfl

/-! Writing T of the selected EXT instance changes that register only. -/

@[simp] theorem setExtT_codes (s : State) (v : Bit) : (s.setExtT v).codes = s.codes := rfl
@[simp] theorem setExtT_so (s : State) (v : Bit) : (s.setExtT v).so = s.so := rfl
@[simp] theorem setExtT_cpwm (s : State) (v : Bit) : (s.setExtT v).cpwm = s.cpwm := rfl
@[simp] theorem setExtT_cdir (s : State) (v : Bit) : (s.setExtT v).cdir = s.cdir := rfl
@[simp] theorem setExtT_ext (s : State) (v : Bit) : (s.setExtT v).ext = s.ext.modify s.sel fun i => { i with t := v } := rfl
@[simp] theorem setExtT_sel (s : State) (v : Bit) : (s.setExtT v).sel = s.sel := rfl
@[simp] theorem setExtT_pending (s : State) (v : Bit) : (s.setExtT v).pending = s.pending := rfl
@[simp] theorem setExtT_responses (s : State) (v : Bit) : (s.setExtT v).responses = s.responses := rfl
@[simp] theorem setExtT_sends (s : State) (v : Bit) : (s.setExtT v).sends = s.sends := rfl

/-! Writing A of the selected EXT instance changes that register only. -/

@[simp] theorem setExtA_codes (s : State) (v : Bit) : (s.setExtA v).codes = s.codes := rfl
@[simp] theorem setExtA_so (s : State) (v : Bit) : (s.setExtA v).so = s.so := rfl
@[simp] theorem setExtA_cpwm (s : State) (v : Bit) : (s.setExtA v).cpwm = s.cpwm := rfl
@[simp] theorem setExtA_cdir (s : State) (v : Bit) : (s.setExtA v).cdir = s.cdir := rfl
@[simp] theorem setExtA_ext (s : State) (v : Bit) : (s.setExtA v).ext = s.ext.modify s.sel fun i => { i with a := v } := rfl
@[simp] theorem setExtA_sel (s : State) (v : Bit) : (s.setExtA v).sel = s.sel := rfl
@[simp] theorem setExtA_pending (s : State) (v : Bit) : (s.setExtA v).pending = s.pending := rfl
@[simp] theorem setExtA_responses (s : State) (v : Bit) : (s.setExtA v).responses = s.responses := rfl
@[simp] theorem setExtA_sends (s : State) (v : Bit) : (s.setExtA v).sends = s.sends := rfl

/-! Delivering a response appends it and changes nothing else. -/

@[simp] theorem respond_codes (p : Port) (r : Result) (s : State) : (respond p r s).codes = s.codes := rfl
@[simp] theorem respond_so (p : Port) (r : Result) (s : State) : (respond p r s).so = s.so := rfl
@[simp] theorem respond_cpwm (p : Port) (r : Result) (s : State) : (respond p r s).cpwm = s.cpwm := rfl
@[simp] theorem respond_cdir (p : Port) (r : Result) (s : State) : (respond p r s).cdir = s.cdir := rfl
@[simp] theorem respond_ext (p : Port) (r : Result) (s : State) : (respond p r s).ext = s.ext := rfl
@[simp] theorem respond_sel (p : Port) (r : Result) (s : State) : (respond p r s).sel = s.sel := rfl
@[simp] theorem respond_pending (p : Port) (r : Result) (s : State) : (respond p r s).pending = s.pending := rfl
@[simp] theorem respond_responses (p : Port) (r : Result) (s : State) : (respond p r s).responses = s.responses ++ [⟨p, r⟩] := rfl
@[simp] theorem respond_sends (p : Port) (r : Result) (s : State) : (respond p r s).sends = s.sends := rfl

/-! Constructing an instance changes one bank only; no host-side field and no parameter changes. -/

@[simp] theorem construct_codes (c : InstanceConfig) (s : State) : (construct c s).codes = s.codes := by cases c <;> rfl
@[simp] theorem construct_sel (c : InstanceConfig) (s : State) : (construct c s).sel = s.sel := by cases c <;> rfl
@[simp] theorem construct_pending (c : InstanceConfig) (s : State) : (construct c s).pending = s.pending := by cases c <;> rfl
@[simp] theorem construct_responses (c : InstanceConfig) (s : State) : (construct c s).responses = s.responses := by
  cases c <;> rfl
@[simp] theorem construct_sends (c : InstanceConfig) (s : State) : (construct c s).sends = s.sends := by cases c <;> rfl

/-! Power-off empties the four banks and changes nothing else. -/

@[simp] theorem powerOff_codes (s : State) : (powerOff s).codes = s.codes := rfl
@[simp] theorem powerOff_so (s : State) : (powerOff s).so = [] := rfl
@[simp] theorem powerOff_cpwm (s : State) : (powerOff s).cpwm = [] := rfl
@[simp] theorem powerOff_cdir (s : State) : (powerOff s).cdir = [] := rfl
@[simp] theorem powerOff_ext (s : State) : (powerOff s).ext = [] := rfl
@[simp] theorem powerOff_sel (s : State) : (powerOff s).sel = s.sel := rfl
@[simp] theorem powerOff_pending (s : State) : (powerOff s).pending = s.pending := rfl
@[simp] theorem powerOff_responses (s : State) : (powerOff s).responses = s.responses := rfl
@[simp] theorem powerOff_sends (s : State) : (powerOff s).sends = s.sends := rfl

/-! A use of the pulse sender is recorded and changes nothing else. -/

@[simp] theorem recordSend_codes (p : PulseSeq) (o : SendOutcome) (s : State) : (recordSend p o s).codes = s.codes := rfl
@[simp] theorem recordSend_so (p : PulseSeq) (o : SendOutcome) (s : State) : (recordSend p o s).so = s.so := rfl
@[simp] theorem recordSend_cpwm (p : PulseSeq) (o : SendOutcome) (s : State) : (recordSend p o s).cpwm = s.cpwm := rfl
@[simp] theorem recordSend_cdir (p : PulseSeq) (o : SendOutcome) (s : State) : (recordSend p o s).cdir = s.cdir := rfl
@[simp] theorem recordSend_ext (p : PulseSeq) (o : SendOutcome) (s : State) : (recordSend p o s).ext = s.ext := rfl
@[simp] theorem recordSend_sel (p : PulseSeq) (o : SendOutcome) (s : State) : (recordSend p o s).sel = s.sel := rfl
@[simp] theorem recordSend_pending (p : PulseSeq) (o : SendOutcome) (s : State) : (recordSend p o s).pending = s.pending := rfl
@[simp] theorem recordSend_responses (p : PulseSeq) (o : SendOutcome) (s : State) : (recordSend p o s).responses = s.responses := rfl
@[simp] theorem recordSend_sends (p : PulseSeq) (o : SendOutcome) (s : State) : (recordSend p o s).sends = s.sends ++ [⟨p, o⟩] := rfl

end Sys2Proof.Machine
end

