-- ==== Sys2Proof/Laws/Ops.lean ====
section
/-! SUPPORT. One lemma per shared operation: everything it can do. -/

namespace Sys2Proof.Machine

/-- A 1-bit flip undoes itself. -/
@[simp] theorem flipBit_flipBit (b : Bit) : flipBit (flipBit b) = b := by
  revert b; decide

/-- A 1-bit flip is the complement. -/
theorem flipBit_eq_not (b : Bit) : flipBit b = ~~~b := by
  revert b; decide

/-- A 1-bit flip adds 1. -/
theorem flipBit_eq_add_one (b : Bit) : flipBit b = b + 1 := by
  revert b; decide

/-- Delivering a packed frame: the registers are committed and the rendering is the response. -/
@[simp] theorem deliver_ok (p : Port) (f : Frame) (commit : State → State) (s : State) :
    deliver p (.ok f) commit s = .next (respond p (.ok (render f)) (commit s)) := rfl

/-- Delivering a packer error: the error is the response and nothing is committed. -/
@[simp] theorem deliver_error (p : Port) (e : ProtocolError) (commit : State → State) (s : State) :
    deliver p (.error e) commit s = .next (respond p (.err e) s) := rfl

/-- Delivering never stops the machine: exactly one response on the port, and the two ways it can go. -/
theorem deliver_cases (p : Port) (packed : Except ProtocolError Frame) (commit : State → State) (s : State) :
    (∃ e, packed = .error e ∧ deliver p packed commit s = .next (respond p (.err e) s)) ∨
      (∃ f, packed = .ok f ∧ deliver p packed commit s = .next (respond p (.ok (render f)) (commit s))) := by
  cases packed with
  | error e => exact .inl ⟨e, rfl, rfl⟩
  | ok f => exact .inr ⟨f, rfl, rfl⟩

/-- On an existing selected SO instance the body runs on it. -/
theorem withSo_of_some {s : State} {i : SoInstance} (h : s.so[s.sel]? = some i) (body : SoInstance → StepResult) :
    withSo s body = body i := by
  simp [withSo, h]

/-- On an existing selected CPWM instance the body runs on it. -/
theorem withCpwm_of_some {s : State} {i : CpwmInstance} (h : s.cpwm[s.sel]? = some i)
    (body : CpwmInstance → StepResult) : withCpwm s body = body i := by
  simp [withCpwm, h]

/-- On an existing selected CDIR instance the body runs on it. -/
theorem withCdir_of_some {s : State} {i : CdirInstance} (h : s.cdir[s.sel]? = some i)
    (body : CdirInstance → StepResult) : withCdir s body = body i := by
  simp [withCdir, h]

/-- On an existing selected EXT instance the body runs on it. -/
theorem withExt_of_some {s : State} {i : ExtInstance} (h : s.ext[s.sel]? = some i) (body : ExtInstance → StepResult) :
    withExt s body = body i := by
  simp [withExt, h]

/-- An entry that is there has its index below the length. -/
theorem index_lt_of_getElem? {α : Type} {l : List α} {k : Nat} {x : α} (h : l[k]? = some x) : k < l.length :=
  (List.getElem?_eq_some_iff.mp h).1

/-- Modifying an entry that is there is setting it. -/
theorem modify_eq_set {α : Type} {l : List α} {k : Nat} {x : α} (h : l[k]? = some x) (g : α → α) :
    l.modify k g = l.set k (g x) := by
  obtain ⟨hk, rfl⟩ := List.getElem?_eq_some_iff.mp h
  apply List.ext_getElem
  · simp
  · intro n _ _
    by_cases hn : k = n
    · subst hn; simp
    · simp [hn]

/-- Setting an entry twice is setting it once. -/
theorem modify_set {α : Type} {l : List α} {k : Nat} {x : α} (h : k < l.length) (g : α → α) :
    (l.set k x).modify k g = l.set k (g x) := by
  rw [modify_eq_set (x := x) (by simp [h])]
  simp

/-- What a successful EXT operation leaves in the bank: T flipped, A flipped by ToggleAddress only. -/
theorem commitExt_eq {c : ExtCommand} {i : ExtInstance} {s : State} (h : s.ext[s.sel]? = some i) :
    commitExt c i s =
      { s with ext := s.ext.set s.sel
                 { i with t := flipBit i.t, a := if c = .toggleAddress then flipBit i.a else i.a } } := by
  have hk := index_lt_of_getElem? h
  by_cases hc : c = .toggleAddress
  · simp [commitExt, hc, State.setExtT, State.setExtA, modify_eq_set h, modify_set hk]
  · simp [commitExt, hc, State.setExtT, modify_eq_set h]

/-- Writing T of a selected SO instance that is there. -/
theorem setSoT_eq {i : SoInstance} {s : State} (h : s.so[s.sel]? = some i) (v : Bit) :
    s.setSoT v = { s with so := s.so.set s.sel { i with t := v } } := by
  simp [State.setSoT, modify_eq_set h]

end Sys2Proof.Machine
end

