-- ==== Sys2Proof/Laws/Packer.lean ====
section
/-! SUPPORT. PACK on the three field lists of the hardware gives the three bit patterns (30_encoding.md R49 to R51, R81, R83). -/

namespace Sys2Proof.Machine

/-- CLAMP stays in -7..8 (R70). -/
theorem clamp_range (s : Int) : -7 ≤ clamp s ∧ clamp s ≤ 8 := by
  unfold clamp
  repeat' split
  all_goals omega

/-- QUANTIZE yields a nibble (R70, R83). -/
theorem quantize_lt (s : Int) : quantize s < 16 := by
  have h := clamp_range s
  simp only [quantize]
  split_ifs <;> omega

/-- The CDIR data value is a nibble: blue high, red low (R59). -/
theorem directData_eq (r b : DirectState) : directData r b = (b.code ++ r.code).toNat := by
  cases r <;> cases b <;> rfl

/-- The LRC of eight bits and a last nibble. -/
theorem withLrc_append (p : BitVec 8) (n : Nibble) :
    withLrc (p ++ n) = p ++ n ++ ((0xF : Nibble) ^^^ p.extractLsb' 4 4 ^^^ p.extractLsb' 0 4 ^^^ n) := by
  have h1 : (p ++ n).extractLsb' 8 4 = p.extractLsb' 4 4 := by
    ext i hi
    rw [BitVec.getElem_extractLsb', BitVec.getElem_extractLsb', BitVec.getLsbD_append, if_neg (by omega)]
    congr 1; omega
  have h2 : (p ++ n).extractLsb' 4 4 = p.extractLsb' 0 4 := by
    ext i hi
    rw [BitVec.getElem_extractLsb', BitVec.getElem_extractLsb', BitVec.getLsbD_append, if_neg (by omega)]
    congr 1; omega
  have h3 : (p ++ n).extractLsb' 0 4 = n := by
    ext i hi
    rw [BitVec.getElem_extractLsb', BitVec.getLsbD_append, if_pos (by omega), Nat.zero_add, BitVec.getLsbD_eq_getElem hi]
  simp only [withLrc, lrc, h1, h2, h3]

/-- A last nibble joins the number as it joins the bits. -/
theorem ofNat_snoc (x : Nat) (n : Nibble) : BitVec.ofNat 12 (x * 2 ^ 4 + n.toNat) = BitVec.ofNat 8 x ++ n := by
  apply BitVec.eq_of_toNat_eq
  have := n.isLt
  rw [BitVec.toNat_append, BitVec.toNat_ofNat, BitVec.toNat_ofNat, ← Nat.shiftLeft_add_eq_or_of_lt (by omega), Nat.shiftLeft_eq]
  omega

/-- PACK on a list whose values fit, given its first eight bits and its last nibble. -/
theorem pack_eq {fl : FieldList} {p : BitVec 8} {n : Nibble}
    (hv : fl.fields.all (fun f => f.value < 2 ^ f.width) = true)
    (hb : BitVec.ofNat 12 (concatValues fl.fields) = p ++ n) :
    pack fl = .ok (p ++ n ++ ((0xF : Nibble) ^^^ p.extractLsb' 4 4 ^^^ p.extractLsb' 0 4 ^^^ n)) := by
  simp only [pack, hv, if_true, hb, withLrc_append]

/-- FRAME_SO is the pattern `T0CC 01MO DDDD LLLL`, with no overflow for a nibble (R49, R83). -/
theorem frameSo_eq (t : Bit) (c : ChannelField) (m o : Bit) (d : Nibble) :
    frameSo t c m o d.toNat = .ok (soPattern t c m o d) := by
  have hb : BitVec.ofNat 12 (concatValues (soFields t c m o d.toNat).fields) =
      (t ++ (0 : Bit) ++ c ++ (0 : Bit) ++ (1 : Bit) ++ m ++ o) ++ d := by
    rw [show concatValues (soFields t c m o d.toNat).fields =
      concatValues ((soFields t c m o 0).fields.take 7) * 2 ^ 4 + d.toNat from rfl, ofNat_snoc]
    congr 1
    revert t c m o; decide
  have h1 : t.setWidth 4 * (8 : Nibble) + c.setWidth 4 =
      BitVec.extractLsb' 4 4 (t ++ (0 : Bit) ++ c ++ (0 : Bit) ++ (1 : Bit) ++ m ++ o) := by
    clear hb; revert t c m o; decide
  have h2 : ((0 : Bit).setWidth 4 <<< 3) ||| ((1 : Nibble) <<< 2) ||| (m.setWidth 4 <<< 1) ||| o.setWidth 4 =
      BitVec.extractLsb' 0 4 (t ++ (0 : Bit) ++ c ++ (0 : Bit) ++ (1 : Bit) ++ m ++ o) := by
    clear hb h1; revert t c m o; decide
  have hv : (soFields t c m o d.toNat).fields.all (fun f => f.value < 2 ^ f.width) = true := by
    have := t.isLt; have := c.isLt; have := m.isLt; have := o.isLt; have := d.isLt
    simp only [List.all_eq_true, decide_eq_true_eq]
    simp [soFields, fill, soLayout]
    omega
  rw [frameSo, pack_eq hv hb, soPattern, soChecksum, h1, h2]
  congr 2
  ac_rfl

/-- FRAME_CPWM is the pattern `01CC BBBB AAAA LLLL`, with no overflow for nibbles (R50, R83). -/
theorem frameCpwm_eq (c : ChannelField) (b a : Nibble) : frameCpwm c b.toNat a.toNat = .ok (cpwmPattern c b a) := by
  have hb : BitVec.ofNat 12 (concatValues (cpwmFields c b.toNat a.toNat).fields) =
      ((0 : Bit) ++ (1 : Bit) ++ c ++ b) ++ a := by
    rw [show concatValues (cpwmFields c b.toNat a.toNat).fields =
      concatValues ((cpwmFields c b.toNat 0).fields.take 4) * 2 ^ 4 + a.toNat from rfl, ofNat_snoc]
    congr 1
    revert c b; decide
  have h1 : ((0 : Bit).setWidth 4 <<< 3) ||| ((1 : Nibble) <<< 2) ||| c.setWidth 4 =
      BitVec.extractLsb' 4 4 ((0 : Bit) ++ (1 : Bit) ++ c ++ b) := by
    clear hb; revert c b; decide
  have h2 : b = BitVec.extractLsb' 0 4 ((0 : Bit) ++ (1 : Bit) ++ c ++ b) := by
    clear hb h1; revert c b; decide
  have hv : (cpwmFields c b.toNat a.toNat).fields.all (fun f => f.value < 2 ^ f.width) = true := by
    have := c.isLt; have := b.isLt; have := a.isLt
    simp only [List.all_eq_true, decide_eq_true_eq]
    simp [cpwmFields, fill, cpwmLayout]
    omega
  rw [frameCpwm, pack_eq hv hb, ← h2, cpwmPattern, cpwmChecksum, h1]
  congr 2
  ac_rfl

/-- FRAME_X is the pattern `TECC aMMM FFFF LLLL`, with no overflow for a nibble (R51, R83). -/
theorem frameExt_eq (t e : Bit) (c : ChannelField) (a : Bit) (m : BitVec 3) (f : Nibble) :
    frameExt t e c a m f.toNat = .ok (extPattern t e c a m f) := by
  have hb : BitVec.ofNat 12 (concatValues (extFields t e c a m f.toNat).fields) = (t ++ e ++ c ++ a ++ m) ++ f := by
    rw [show concatValues (extFields t e c a m f.toNat).fields =
      concatValues ((extFields t e c a m 0).fields.take 5) * 2 ^ 4 + f.toNat from rfl, ofNat_snoc]
    congr 1
    revert t e c a m; decide
  have h1 : t.setWidth 4 * (8 : Nibble) + e.setWidth 4 * (4 : Nibble) + c.setWidth 4 = BitVec.extractLsb' 4 4 (t ++ e ++ c ++ a ++ m) := by
    clear hb; revert t e c a m; decide
  have h2 : a.setWidth 4 * (8 : Nibble) + m.setWidth 4 = BitVec.extractLsb' 0 4 (t ++ e ++ c ++ a ++ m) := by
    clear hb h1; revert t e c a m; decide
  have hv : (extFields t e c a m f.toNat).fields.all (fun f => f.value < 2 ^ f.width) = true := by
    have := t.isLt; have := e.isLt; have := c.isLt; have := a.isLt; have := m.isLt; have := f.isLt
    simp only [List.all_eq_true, decide_eq_true_eq]
    simp [extFields, fill, extLayout]
    omega
  rw [frameExt, pack_eq hv hb, extPattern, extChecksum, h1, h2]
  congr 2
  ac_rfl

end Sys2Proof.Machine
end

