-- ==== Sys2Proof/Laws/PerInstr.lean ====
section
/-! SUPPORT. One lemma per constructor: the command record of an operation names that operation (30_encoding.md R65, R66). -/

namespace Sys2Proof.Laws.RecordRoundTrip

/-- The record written for an operation is legal, goes to the instance it was written for, and decodes to the operation. -/
def Statement (i : Instr) : Prop :=
  ∀ k : Nat, (i.toRequest k).decode = .ok i ∧ (i.toRequest k).index = k ∧ (i.toRequest k).legal = true

theorem soPwm (speed : Speed) : Statement (.soPwm speed) := fun _ => ⟨rfl, rfl, rfl⟩

theorem soDisc (code : Nibble) : Statement (.soDisc code) := fun _ => ⟨rfl, rfl, rfl⟩

theorem cpwm (red blue : Speed) : Statement (.cpwm red blue) := fun _ => ⟨rfl, rfl, rfl⟩

theorem cdir (red blue : DirectState) : Statement (.cdir red blue) := by
  intro k
  cases red <;> cases blue <;> exact ⟨rfl, rfl, rfl⟩

theorem extBrk : Statement .extBrk := fun _ => ⟨rfl, rfl, rfl⟩

theorem extInc : Statement .extInc := fun _ => ⟨rfl, rfl, rfl⟩

theorem extDec : Statement .extDec := fun _ => ⟨rfl, rfl, rfl⟩

theorem extTgf : Statement .extTgf := fun _ => ⟨rfl, rfl, rfl⟩

theorem extTga : Statement .extTga := fun _ => ⟨rfl, rfl, rfl⟩

theorem extAln : Statement .extAln := fun _ => ⟨rfl, rfl, rfl⟩

end Sys2Proof.Laws.RecordRoundTrip
end

