-- ==== Sys2Proof/Laws/Step.lean ====
section
/-! SUPPORT. What a step does with the host's next action, and what the presence of an instance depends on. -/

namespace Sys2Proof.Machine

/-- A step takes the first pending action. -/
theorem step_of_pending {s : State} {e : HostEvent} {rest : List HostEvent} (h : s.pending = e :: rest) :
    step s = runEvent e { s with pending := rest } := by
  simp only [step, takeNext, h]

/-- An instance that is there is present at its interface. -/
theorem has_so {s : State} {k : Nat} {i : SoInstance} (h : s.so[k]? = some i) : s.has (.so k) = true :=
  decide_eq_true (index_lt_of_getElem? h)

/-- An instance that is there is present at its interface. -/
theorem has_cpwm {s : State} {k : Nat} {i : CpwmInstance} (h : s.cpwm[k]? = some i) : s.has (.cpwm k) = true :=
  decide_eq_true (index_lt_of_getElem? h)

/-- An instance that is there is present at its interface. -/
theorem has_cdir {s : State} {k : Nat} {i : CdirInstance} (h : s.cdir[k]? = some i) : s.has (.cdir k) = true :=
  decide_eq_true (index_lt_of_getElem? h)

/-- An instance that is there is present at its interface. -/
theorem has_ext {s : State} {k : Nat} {i : ExtInstance} (h : s.ext[k]? = some i) : s.has (.ext k) = true :=
  decide_eq_true (index_lt_of_getElem? h)

/-- Which instances are present depends on the banks only. -/
theorem has_with_host_side (s : State) (p : Port) (sel : Nat) (pending : List HostEvent) :
    ({ s with sel := sel, pending := pending } : State).has p = s.has p := by
  cases p <;> rfl

/-- Two states with banks of the same lengths have the same instances present. -/
theorem has_of_lengths {s t : State} (hso : t.so.length = s.so.length) (hcpwm : t.cpwm.length = s.cpwm.length)
    (hcdir : t.cdir.length = s.cdir.length) (hext : t.ext.length = s.ext.length) (p : Port) : t.has p = s.has p := by
  cases p <;> simp only [State.has, hso, hcpwm, hcdir, hext]

/-- A construction leaves every instance that is there present. -/
theorem has_construct {s : State} {p : Port} (c : InstanceConfig) (h : s.has p = true) : (construct c s).has p = true := by
  cases p <;> cases c <;> first
    | exact h
    | (simp only [State.has, construct, decide_eq_true_eq, List.length_append] at h ⊢; omega)

/-- A construction leaves every SO instance that is there as it is. -/
theorem construct_so_of_some {s : State} {k : Nat} {i : SoInstance} (c : InstanceConfig) (h : s.so[k]? = some i) :
    (construct c s).so[k]? = some i := by
  cases c with
  | so ch out => exact (List.getElem?_append_left (index_lt_of_getElem? h)).trans h
  | cpwm ch => exact h
  | cdir ch => exact h
  | ext ch => exact h

/-- A reset of an instance that is there completes and leaves the same instances present. -/
theorem resetInstance_of_has {p : Port} {s : State} (h : s.has p = true) :
    ∃ t, resetInstance p s = .next t ∧ (∀ q, t.has q = s.has q) ∧ t.pending = s.pending ∧ t.responses = s.responses := by
  unfold resetInstance
  rw [if_pos h]
  cases p with
  | so k => exact ⟨_, rfl, has_of_lengths (List.length_modify ..) rfl rfl rfl, rfl, rfl⟩
  | cpwm k => exact ⟨_, rfl, fun _ => rfl, rfl, rfl⟩
  | cdir k => exact ⟨_, rfl, fun _ => rfl, rfl, rfl⟩
  | ext k => exact ⟨_, rfl, has_of_lengths rfl rfl rfl (List.length_modify ..), rfl, rfl⟩

/-- Accepting a command on an existing instance: its error, or the operation it names. -/
theorem acceptCommand_of_has {r : Request} {s : State} (h : s.has (requestPort r) = true) :
    (∃ e, r.decode = .error e ∧ acceptCommand r s = raiseProtocolError (requestPort r) e s) ∨
      (∃ i, r.decode = .ok i ∧ acceptCommand r s = exec i { s with sel := r.index }) := by
  unfold acceptCommand
  rw [if_pos h]
  cases hd : r.decode with
  | error e => exact .inl ⟨e, rfl, rfl⟩
  | ok i => exact .inr ⟨i, rfl, rfl⟩

/-- A command to an instance that does not exist is refused. -/
theorem acceptCommand_of_absent {r : Request} {s : State} (h : s.has (requestPort r) = false) :
    acceptCommand r s = .refused .noSuchInstance := by
  simp [acceptCommand, h]

/-- A reset of an instance that does not exist is refused. -/
theorem resetInstance_of_absent {p : Port} {s : State} (h : s.has p = false) :
    resetInstance p s = .refused .noSuchInstance := by
  simp [resetInstance, h]

/-- One step of a run that goes on. -/
theorem run_succ_of_step {n : Nat} {s t : State} (h : step s = .next t) : core.run (n + 1) s = core.run n t := by
  have hc : core.step s = .next t := h
  simp only [Host.Core.run, hc]

end Sys2Proof.Machine
end

