-- ==== Sys2Proof/Tests/Slice0.lean ====
section
/-! SUPPORT. Tests. Expected values come from spec/: the frames and tables of 95_test_vectors.md, the patterns of 30_encoding.md and the
examples of the rules. After them, for each statement with hypotheses, a named witness that meets them. -/

open Sys2Proof Sys2Proof.Machine

/-! ## Helpers -/

/-- The reset state with an instance selected and, for SO and EXT, the given instances in place. -/
def testState (k : Nat) (so : SoInstance) (ext : ExtInstance) : State :=
  { State.reset with so := State.reset.so.set k so, ext := State.reset.ext.set k ext, sel := k }

/-- A fresh channel-One instance is selected. -/
def fresh : State := testState 0 ⟨0, 0, 0⟩ ⟨0, 0, 0⟩

/-- The frame of the last response, and T of the selected SO instance, T and A of the selected EXT instance. -/
def outcomeOf (o : StepResult) : Option (Option Frame × Option Bit × Option (Bit × Bit)) :=
  match o with
  | .next t =>
    some (t.responses.getLast?.bind (fun r => match r.result with | .ok p => frameOfPulses p | .err _ => none),
      t.so[t.sel]?.map SoInstance.t, t.ext[t.sel]?.map fun i => (i.t, i.a))
  | .fault _ => none
  | .refused _ => none

/-! ## WellFormed: an ill-formed term for each check -/

theorem smoke_injective : ExtCode.injective ⟨0, 1, 2, 4, 6, 6⟩ = false := by decide
theorem smoke_legal_selector : ExtCmd.legal ⟨6⟩ = false := by decide
theorem smoke_legal_request : Request.legal (.ext 0 ⟨7⟩) = false := by decide
theorem smoke_canonical_speed_high : Speed.canonical 9 = false := by decide
theorem smoke_canonical_speed_low : Speed.canonical (-8) = false := by decide
theorem smoke_canonical_operation : Instr.canonical (.cpwm 0 100) = false := by decide
theorem smoke_proto : FrameView.protoOk ⟨.cdir 0, 0, 0, .soPwm 0⟩ = false := by decide
theorem smoke_toggle : FrameView.toggleOk ⟨.cpwm 0, 1, 0, .cpwm 0 0⟩ = false := by decide
theorem smoke_address : FrameView.addressOk ⟨.so 0 0, 0, 1, .soPwm 0⟩ = false := by decide
theorem smoke_wf : FrameView.wf ⟨.so 0 0, 0, 0, .soPwm 9⟩ = false := by decide

/-! ## Decoding: one word per operation, written out from R49 to R51 (the LRC column of 95_test_vectors.md section 2) -/

theorem test_decode_soPwm : decodeTableWord 16 0b1011010111011100 = some (.soPwm (-3)) := by decide
theorem test_decode_soDisc : decodeTableWord 16 0b0000011001101111 = some (.soDisc 6) := by decide
theorem test_decode_cpwm : decodeTableWord 16 0b0110001111100100 = some (.cpwm (-2) 3) := by decide
theorem test_decode_cdir : decodeTableWord 16 0b0001000110010110 = some (.cdir .forward .backward) := by decide
theorem test_decode_extBrk : decodeTableWord 16 0b1000000000000111 = some .extBrk := by decide
theorem test_decode_extInc : decodeTableWord 16 0b0011100000010101 = some .extInc := by decide
theorem test_decode_extDec : decodeTableWord 16 0b0000100000100101 = some .extDec := by decide
theorem test_decode_extTgf : decodeTableWord 16 0b0000000001001011 = some .extTgf := by decide
theorem test_decode_extTga : decodeTableWord 16 0b1001000001100000 = some .extTga := by decide
theorem test_decode_extAln : decodeTableWord 16 0b0000000001111000 = some .extAln := by decide

/-- U7: the frame decoder rejects, by name, a wrong LRC, address 1 in an SO frame, mode 2, and a reserved function code. -/
theorem test_decode_rejects :
    decodeFrame ExtCode.standard 0x0400 = .error .badLrc ∧ decodeFrame ExtCode.standard 0x0C03 = .error .fixedBit ∧
    decodeFrame ExtCode.standard 0x020D = .error .unusedMode ∧
    decodeFrame ExtCode.standard 0x003C = .error .reservedFunction := ⟨rfl, rfl, rfl, rfl⟩

theorem test_decodeTableWord_length : decodeTableWord 8 0x0400 = none ∧ decodeTableWord 16 0x10400 = none := by decide

/-- R57, R58, R59: the field values of the symbolic names. -/
theorem test_names :
    [Channel.one, .two, .three, .four].map Channel.field = [0, 1, 2, 3] ∧ Output.red.field = 0 ∧ Output.blue.field = 1 ∧
    [DirectState.float, .forward, .backward, .brake].map DirectState.code = [0, 1, 2, 3] := by decide

/-! ## Internal functions (sections 1, 2.1 to 2.3) -/

theorem test_quantize :
    [-128, -9, -8, -7, -6, -1, 0, 1, 7, 8, 9, 100, 127].map quantize = [9, 9, 9, 9, 10, 15, 0, 1, 7, 8, 7, 7, 7] := by
  decide

theorem test_pack :
    frameSo 0 0 0 0 5 = .ok 0x045E ∧ frameCpwm 3 8 15 = .ok 0x78FF ∧ frameExt 1 0 2 1 0 7 = .ok 0xA87A ∧
    frameSo 0 0 0 0 16 = .error .fieldOverflow := ⟨rfl, rfl, rfl, rfl⟩

/-- V2, the source's Combo-Direct scenario. -/
theorem test_render_V2 : render 0x011F =
    [157, 1026, 157, 263, 157, 263, 157, 263, 157, 263, 157, 263, 157, 263, 157, 263, 157, 552,
     157, 263, 157, 263, 157, 263, 157, 552, 157, 552, 157, 552, 157, 552, 157, 552, 157, 1026] := by decide

/-- V3, the source's Single-Output scenario. -/
theorem test_render_V3 : render 0x045E =
    [157, 1026, 157, 263, 157, 263, 157, 263, 157, 263, 157, 263, 157, 552, 157, 263, 157, 263,
     157, 263, 157, 552, 157, 263, 157, 552, 157, 552, 157, 552, 157, 552, 157, 263, 157, 1026] := by decide

theorem test_air_time : totalUs (render 0x011F) = 10820 ∧ totalUs (render 0x000F) = 10242 ∧
    totalUs (render 0xB5DC) = 11976 := by decide

theorem test_beats : (beats [157, 1026]).map Beat.last = [false, true] := by decide

/-! ## Operations (sections 2.4 to 2.8): the frame, then T of the SO instance, then T and A of the EXT instance -/

theorem test_soPwm_fresh : outcomeOf (exec (.soPwm 5) fresh) = some (some 0x045E, some 1, some (0, 0)) := by decide

theorem test_soPwm_toggled :
    outcomeOf (exec (.soPwm (-3)) (testState 7 ⟨3, 1, 1⟩ ⟨0, 0, 0⟩)) = some (some 0xB5DC, some 0, none) := by decide

theorem test_soDisc_fresh : outcomeOf (exec (.soDisc 6) fresh) = some (some 0x066F, some 0, some (0, 0)) := by decide

theorem test_soDisc_toggled :
    outcomeOf (exec (.soDisc 0xB) (testState 3 ⟨1, 1, 1⟩ ⟨3, 0, 0⟩)) = some (some 0x97BA, some 1, some (0, 0)) := by decide

theorem test_cpwm_order : outcomeOf (exec (.cpwm 7 (-7)) fresh) = some (some 0x4975, some 0, some (0, 0)) := by decide

theorem test_cpwm_clamps :
    outcomeOf (exec (.cpwm (-128) 127) (testState 3 ⟨1, 1, 0⟩ ⟨3, 0, 0⟩)) = some (some 0x7796, some 0, some (0, 0)) := by
  decide

theorem test_cdir_V2 : outcomeOf (exec (.cdir .forward .float) fresh) = some (some 0x011F, some 0, some (0, 0)) := by
  decide

theorem test_cdir_order :
    outcomeOf (exec (.cdir .backward .forward) (testState 2 ⟨1, 0, 1⟩ ⟨2, 1, 1⟩)) =
      some (some 0x216A, some 1, some (1, 1)) := by decide

theorem test_extBrk : outcomeOf (exec .extBrk (testState 0 ⟨0, 0, 0⟩ ⟨0, 1, 0⟩)) = some (some 0x8007, some 0, some (0, 0)) := by
  decide

theorem test_extInc : outcomeOf (exec .extInc (testState 3 ⟨1, 1, 0⟩ ⟨3, 0, 1⟩)) = some (some 0x3815, some 0, some (1, 1)) := by
  decide

theorem test_extDec : outcomeOf (exec .extDec (testState 0 ⟨0, 0, 0⟩ ⟨0, 0, 1⟩)) = some (some 0x0825, some 0, some (1, 1)) := by
  decide

theorem test_extTgf : outcomeOf (exec .extTgf fresh) = some (some 0x004B, some 0, some (1, 0)) := by decide

theorem test_extTga_sets : outcomeOf (exec .extTga fresh) = some (some 0x0069, some 0, some (1, 1)) := by decide

theorem test_extTga_other :
    outcomeOf (exec .extTga (testState 1 ⟨0, 1, 0⟩ ⟨1, 1, 0⟩)) = some (some 0x9060, some 0, some (0, 1)) := by decide

theorem test_extAln : outcomeOf (exec .extAln (testState 2 ⟨1, 0, 0⟩ ⟨2, 1, 1⟩)) = some (some 0xA87A, some 0, some (0, 1)) := by
  decide

/-! ## The step (section 2.9) -/

theorem test_step_badCommand :
    step { fresh with pending := [.command (.ext 0 ⟨6⟩)] } =
      .next { fresh with responses := [⟨.ext 0, .err .badCommand⟩] } := rfl

theorem test_step_reset :
    outcomeOf (step { testState 0 ⟨0, 0, 1⟩ ⟨0, 1, 1⟩ with pending := [.reset (.ext 0)] }) =
      some (none, some 1, some (0, 0)) := by decide

theorem test_step_table_word :
    outcomeOf (step (State.reset.withFetchWord 16 0x0060)) = some (some 0x0069, some 0, some (1, 1)) := by decide

theorem test_step_idle : step State.reset = .next State.reset := rfl

/-! ## Witnesses: the hypotheses of each statement are met -/

/-- ClampKeepsEightAndSaturates, QuantizeIsLowNibbleOfClamp, QuantizeTableAndUniquePreimage: each range at its two ends. -/
theorem witness_speed_ranges :
    (8 : Int) < 9 ∧ (-8 : Int) < -7 ∧ (-7 : Int) ≤ 7 ∧ 0 ≤ clamp 0 ∧ clamp (-1) < 0 ∧
    BitVec.toInt (0x80 : Speed) ≤ -8 ∧ BitVec.toInt (0xF8 : Speed) ≤ -8 ∧ BitVec.toInt (0xF9 : Speed) = -7 ∧
    BitVec.toInt (0xFF : Speed) = -1 ∧ BitVec.toInt (0 : Speed) = 0 ∧ BitVec.toInt (8 : Speed) = 8 ∧
    9 ≤ BitVec.toInt (9 : Speed) ∧ 9 ≤ BitVec.toInt (0x7F : Speed) := by decide

/-- FieldOverflowEndsTheOperation: a value of 16 in the 4-bit field D. -/
theorem witness_overflow : ∃ f ∈ (soFields 0 0 0 0 16).fields, 2 ^ f.width ≤ f.value :=
  ⟨⟨"D", 4, 16⟩, by decide, by decide⟩

/-- PackPlacesEveryField, FrameColumnsAreOdd, AirTimeOfAFrame: the nearest accepted list, split at its first and at its last field. -/
theorem witness_pack :
    (soFields 0 3 0 0 15).fields = [] ++ ⟨"T", 1, 0⟩ :: (soFields 0 3 0 0 15).fields.drop 1 ∧
    (soFields 0 3 0 0 15).fields = (soFields 0 3 0 0 15).fields.take 7 ++ ⟨"D", 4, 15⟩ :: [] ∧
    (∀ g ∈ (soFields 0 3 0 0 15).fields, g.value < 2 ^ g.width) ∧ pack (soFields 0 3 0 0 15) = .ok 0x34F7 :=
  ⟨rfl, rfl, by decide, rfl⟩

/-- RenderIndexForm, RenderShapeAndInjective: the ends of the index ranges, and a sequence that reads back. -/
theorem witness_render :
    (0 : Nat) < 16 ∧ (15 : Nat) < 16 ∧ (17 : Nat) < 18 ∧ frameOfPulses (render 0x011F) = some 0x011F := by decide

/-- FrameDecodesToItsReading: an injective table that is not the default, and a well-formed reading of each protocol. -/
theorem witness_readings :
    ExtCode.injective ⟨9, 3, 5, 11, 2, 8⟩ = true ∧ FrameView.wf ⟨.so 3 1, 1, 0, .soPwm 8⟩ = true ∧
    FrameView.wf ⟨.so 0 0, 0, 0, .soDisc 15⟩ = true ∧ FrameView.wf ⟨.cpwm 2, 0, 0, .cpwm (-7) 8⟩ = true ∧
    FrameView.wf ⟨.cdir 1, 0, 0, .cdir .brake .backward⟩ = true ∧ FrameView.wf ⟨.ext 3, 1, 1, .extTga⟩ = true := by decide

/-- AcceptedFrameIsItsEncoding, DecoderFollowsTheOpcodeTable: an accepted frame, a row. -/
theorem witness_accepted :
    decodeFrame ExtCode.standard 0x9060 = .ok ⟨.ext 1, 1, 0, .extTga⟩ ∧ ⟨"CPWM", 0xC000, 0x4000⟩ ∈ opcodeTable :=
  ⟨rfl, by decide⟩

/-- NoOperationEmitsAForbiddenFrame, EveryOperationSucceeds: every operation has its instance in the reset state. -/
theorem witness_operations :
    [Instr.soPwm 0, .soDisc 0, .cpwm 0 0, .cdir .float .float, .extBrk, .extInc, .extDec, .extTgf, .extTga, .extAln].all
      (fun i => State.reset.has (portOf i State.reset)) = true := by decide

/-- SoPwmResult, SoDiscResult, ConsecutivePwmDifferInToggleAndLrc, ConsecutiveDiscreteAreIdentical (first clause): the first and the last
SO instance, T = 0. -/
theorem witness_so :
    State.reset.so[State.reset.sel]? = some ⟨0, 0, 0⟩ ∧
    (testState 7 ⟨3, 1, 0⟩ ⟨0, 0, 0⟩).so[(testState 7 ⟨3, 1, 0⟩ ⟨0, 0, 0⟩).sel]? = some ⟨3, 1, 0⟩ := by decide

/-- CpwmResult, CdirResult, StatelessProtocolsAreFunctions: an instance, two states that differ, two speeds with equal clamps. -/
theorem witness_combo :
    State.reset.cpwm[State.reset.sel]? = some ⟨0⟩ ∧ State.reset.cdir[State.reset.sel]? = some ⟨0⟩ ∧
    (testState 0 ⟨0, 0, 1⟩ ⟨0, 1, 1⟩).cpwm[(testState 0 ⟨0, 0, 1⟩ ⟨0, 1, 1⟩).sel]? = some ⟨0⟩ ∧
    (testState 0 ⟨0, 0, 1⟩ ⟨0, 1, 1⟩).cdir[(testState 0 ⟨0, 0, 1⟩ ⟨0, 1, 1⟩).sel]? = some ⟨0⟩ ∧
    testState 0 ⟨0, 0, 1⟩ ⟨0, 1, 1⟩ ≠ State.reset ∧
    clamp (BitVec.toInt (100 : Speed)) = clamp (BitVec.toInt (7 : Speed)) := by decide

/-- ExtendedCommonBody, ExtendedExamples, ConsecutiveExtendedDifferInToggleAndLrc, ToggleAddressTwiceRestores. -/
theorem witness_ext :
    State.reset.ext[State.reset.sel]? = some ⟨0, 0, 0⟩ ∧ State.reset.codes = ExtCode.standard ∧
    ExtCommand.alignToggle ≠ .toggleAddress ∧
    (testState 3 ⟨1, 1, 0⟩ ⟨3, 1, 1⟩).ext[(testState 3 ⟨1, 1, 0⟩ ⟨3, 1, 1⟩).sel]? = some ⟨3, 1, 1⟩ := by decide

/-- ExtendedExamples: the first EXT.TGA completes. -/
theorem witness_ext_next : ∃ t, exec .extTga State.reset = .next t := ⟨_, rfl⟩

/-- ExtendedCommonBody, BadCommandIsTheOnlyIllegalRecord, EveryCommandIsAnsweredOnce: both illegal selectors, and a legal one. -/
theorem witness_requests :
    State.reset.has (.ext 3) = true ∧ 6 ≤ (ExtCmd.mk 6).xcmd.toNat ∧ 6 ≤ (ExtCmd.mk 7).xcmd.toNat ∧
    Request.legal (.ext 3 ⟨6⟩) = false ∧ Request.legal (.ext 3 ⟨7⟩) = false ∧ Request.legal (.ext 3 ⟨5⟩) = true ∧
    State.reset.has (requestPort (.ext 3 ⟨6⟩)) = true := by decide

/-- StatusAndPulseStream: a beat of a stream. -/
theorem witness_beat : (Result.ok [157, 1026]).stream[1]? = some ⟨1026, true⟩ := by decide

/-- StepRunsTheNamedOperation: a pending command that names an operation, and nothing pending. -/
theorem witness_step :
    Request.decode (.cdir 3 ⟨2, 3⟩) = .ok (.cdir .backward .brake) ∧
    State.reset.has (requestPort (.cdir 3 ⟨2, 3⟩)) = true ∧ State.reset.pending = [] := ⟨rfl, by decide, rfl⟩

/-- PlacedTableWordRunsNext: a word of the table. -/
theorem witness_table_word : decodeTableWord 16 0x8456 = some (.soPwm 5) := by decide

/-- ResetClearsRegistersKeepsConfiguration, RegistersAreZeroAfterConstruction, PowerOffEndsEveryLifetime, SendChangesNoInstance: the
pending action and the instance it needs. -/
theorem witness_host_actions :
    ({ State.reset with pending := [.reset (.so 7)] } : State).so[7]? = some ⟨3, 1, 0⟩ ∧
    ({ State.reset with pending := [.reset (.ext 3)] } : State).ext[3]? = some ⟨3, 0, 0⟩ ∧
    ({ State.reset with pending := [.reset (.cpwm 3)] } : State).cpwm[3]? = some ⟨3⟩ ∧
    ({ State.reset with pending := [.reset (.cdir 3)] } : State).cdir[3]? = some ⟨3⟩ ∧
    ({ State.reset with pending := [.construct (.ext 0)] } : State).pending = .construct (.ext 0) :: [] ∧
    ({ State.reset with pending := [.powerOff] } : State).pending = .powerOff :: [] ∧
    ({ State.reset with pending := [.send [] .failure] } : State).pending = .send [] .failure :: [] := by decide

/-- ConsecutiveDiscreteAreIdentical, second clause: six actions between the two SO.DISC of instance 0: another code, an SO.PWM of another
instance, a send, an illegal selector, a construction, a reset of another instance; the hypotheses hold of no action at all too. -/
theorem witness_discrete_between :
    ∃ (s : State) (between : List HostEvent), between.length = 6 ∧ s.so[0]? = some ⟨0, 0, 0⟩ ∧
      (∀ (speed : Speed) (d : Nibble), .command (.so 0 ⟨0, speed, d⟩) ∉ between) ∧
      .reset (.so 0) ∉ between ∧ .powerOff ∉ between ∧
      (∀ r : Request, .command r ∈ between → s.has (requestPort r) = true) ∧
      (∀ q : Port, .reset q ∈ between → s.has q = true) ∧
      s.pending = .command (.so 0 ⟨1, 0, 6⟩) :: (between ++ .command (.so 0 ⟨1, 0xFF, 6⟩) :: []) := by
  let l : List HostEvent := [.command (.so 0 ⟨1, 0, 15⟩), .command (.so 7 ⟨0, 5, 0⟩), .send [] .failure, .command (.ext 0 ⟨7⟩),
    .construct (.so 0 0), .reset (.so 7)]
  refine ⟨{ State.reset with
    pending := .command (.so 0 ⟨1, 0, 6⟩) :: (l ++ .command (.so 0 ⟨1, 0xFF, 6⟩) :: []) }, l, rfl, rfl, ?_, by decide,
    by decide, ?_, ?_, rfl⟩
  · intro speed d h
    simp [l] at h
  · intro r h
    simp [l] at h
    obtain rfl | rfl | rfl := h <;> rfl
  · intro q h
    simp [l] at h
    subst h; rfl

/-- ToggleAdvancesDespiteFailedSend: the three pending actions, and the SO instance. -/
theorem witness_failed_send :
    State.reset.so[0]? = some ⟨0, 0, 0⟩ ∧
    ∃ s : State, s.so = State.reset.so ∧
      s.pending = .command (.so 0 ⟨0, 5, 0⟩) :: .send (render 0x045E) .failure :: .command (.so 0 ⟨0, 5, 0⟩) :: [] :=
  ⟨by decide, { State.reset with
    pending := [.command (.so 0 ⟨0, 5, 0⟩), .send (render 0x045E) .failure, .command (.so 0 ⟨0, 5, 0⟩)] }, rfl, rfl⟩

/-- ToggleAdvancesDespiteFailedSend, EXT clause: the three pending actions and the instance, for the lowest selector, for EXT.TGA and for the
highest legal selector. -/
theorem witness_failed_send_ext :
    State.reset.ext[3]? = some ⟨3, 0, 0⟩ ∧ (0 : BitVec 3).toNat ≤ 5 ∧ (4 : BitVec 3).toNat ≤ 5 ∧ (5 : BitVec 3).toNat ≤ 5 ∧
    ∀ x : BitVec 3, ∃ s : State, s.ext = State.reset.ext ∧
      s.pending = .command (.ext 3 ⟨x⟩) :: .send [] .failure :: .command (.ext 3 ⟨x⟩) :: [] :=
  ⟨by decide, by decide, by decide, by decide, fun x => ⟨{ State.reset with
    pending := [.command (.ext 3 ⟨x⟩), .send [] .failure, .command (.ext 3 ⟨x⟩)] }, rfl, rfl⟩⟩

/-- EveryStepKeepsResponsesValid, ConfigurationNeverChanges: a state with a response in it meets the invariant and steps. -/
theorem witness_invariant :
    State.Inv { State.reset with
      responses := [⟨.cdir 0, .ok (render 0x011F)⟩, ⟨.ext 0, .err .badCommand⟩]
      pending := [.command (.so 0 ⟨0, 5, 0⟩)] } ∧
    ∃ t, step { State.reset with
      responses := [⟨.cdir 0, .ok (render 0x011F)⟩, ⟨.ext 0, .err .badCommand⟩]
      pending := [.command (.so 0 ⟨0, 5, 0⟩)] } = .next t ∧
      (∀ c rest, [HostEvent.command (.so 0 ⟨0, 5, 0⟩)] ≠ .construct c :: rest) ∧
      (∀ rest, [HostEvent.command (.so 0 ⟨0, 5, 0⟩)] ≠ .powerOff :: rest) := by
  refine ⟨⟨by decide, by decide⟩, _, rfl, ?_, ?_⟩
  · intro c rest h; cases h
  · intro rest h; cases h

/-- CommandLeavesOtherInstancesAlone, DistinctInstancesCommute: two interfaces of one bank that differ, both there. -/
theorem witness_two_ports :
    requestPort (.so 0 ⟨0, 5, 0⟩) ≠ requestPort (.so 7 ⟨0, 5, 0⟩) ∧
    State.reset.has (requestPort (.so 0 ⟨0, 5, 0⟩)) = true ∧ State.reset.has (requestPort (.so 7 ⟨0, 5, 0⟩)) = true := by
  decide

/-- RegistersChangeOnlyByFlipOrReset: a step after which the SO and the EXT instance are there still. -/
theorem witness_registers :
    ∃ t, step { State.reset with pending := [.command (.ext 3 ⟨4⟩)] } = .next t ∧ State.reset.so[7]? = some ⟨3, 1, 0⟩ ∧
      t.so[7]? = some ⟨3, 1, 0⟩ ∧ State.reset.ext[3]? = some ⟨3, 0, 0⟩ ∧ t.ext[3]? = some ⟨3, 1, 1⟩ :=
  ⟨_, rfl, rfl, rfl, rfl, rfl⟩

/-- CommandLeavesOtherInstancesAlone: the command completes. -/
theorem witness_command_next :
    ∃ t, step { State.reset with pending := [.command (.so 0 ⟨0, 5, 0⟩)] } = .next t := ⟨_, rfl⟩

/-- ResponseDependsOnOwnInstanceOnly: two states that differ elsewhere agree on the addressed instance. -/
theorem witness_agreeing_states :
    (testState 0 ⟨0, 0, 1⟩ ⟨0, 0, 0⟩).codes = State.reset.codes ∧
    (testState 0 ⟨0, 0, 1⟩ ⟨0, 0, 0⟩).view (requestPort (.ext 0 ⟨4⟩)) = State.reset.view (requestPort (.ext 0 ⟨4⟩)) ∧
    testState 0 ⟨0, 0, 1⟩ ⟨0, 0, 0⟩ ≠ State.reset ∧ State.reset.has (requestPort (.ext 0 ⟨4⟩)) = true := by decide

/-- SoToggleCountsPwmCommands, ExtRegistersCountCommands: command lists and their instances. -/
theorem witness_sequences :
    State.reset.so[7]? = some ⟨3, 1, 0⟩ ∧ State.reset.ext[3]? = some ⟨3, 0, 0⟩ ∧
    ({ State.reset with pending := [.command (.so 7 ⟨0, 5, 0⟩), .command (.so 7 ⟨1, 0, 6⟩)] } : State).pending =
      [SoCmd.mk 0 5 0, SoCmd.mk 1 0 6].map (fun c => .command (.so 7 c)) ++ [] ∧
    ({ State.reset with pending := [.command (.ext 3 ⟨4⟩), .command (.ext 3 ⟨7⟩)] } : State).pending =
      [ExtCmd.mk 4, ExtCmd.mk 7].map (fun c => .command (.ext 3 c)) ++ [] := by decide
end

section
/-! PROOFS. The Waveform Spec: its durations, and what the four protocols share (00_scope.md R8, R34; 41_packer_lrc_render.md R87, R88). -/

namespace Sys2Proof.Machine

/-- Rounding toward zero (R88): a whole number of microseconds that `n` units reach, and whose successor they do not. -/
theorem duration_eq_units {d : Duration} {n : Nat} (reached : d.toNat * carrierHz ≤ n * 1000000)
    (notExceeded : n * 1000000 < (d.toNat + 1) * carrierHz) : d.toNat = n * 1000000 / carrierHz :=
  (Nat.div_eq_of_lt_le reached notExceeded).symm

/-- R34, R87: a protocol's own part of its Waveform Spec is the field layout. -/
theorem waveformSpec_eq (p : Proto) :
    waveformSpec p = ⟨carrierHz, dutyPercent, markUs, zeroUs, oneUs, gapUs, (waveformSpec p).layout⟩ := by
  cases p <;> rfl

/-- R87: the fields of every protocol fill the 12 bits before the LRC. -/
theorem waveformSpec_layout_width (p : Proto) : ((waveformSpec p).layout.map Prod.snd).sum = 12 := by
  cases p with
  | so => exact (by decide : (soLayout.map Prod.snd).sum = 12)
  | cpwm => exact (by decide : (cpwmLayout.map Prod.snd).sum = 12)
  | cdir | ext => exact (by decide : (extLayout.map Prod.snd).sum = 12)

/-- Settles O12: each duration by the two bounds of its rounding, the rest by the common form of the four Waveform Specs. -/
theorem waveformConstantsAgree : Obligations.WaveformConstantsAgree := by
  refine ⟨duration_eq_units (by decide) (by decide), duration_eq_units (by decide) (by decide),
    duration_eq_units (by decide) (by decide), duration_eq_units (by decide) (by decide), fun p => ?_⟩
  have width := waveformSpec_layout_width p
  rw [waveformSpec_eq p]
  exact ⟨rfl, rfl, rfl, rfl, rfl, rfl, width⟩

end Sys2Proof.Machine
end

section
/-! PROOFS. What an operation and an accepted command do, as equations on the whole state: each acts on one entry of one bank and
appends one response (42_single_output.md to 45_extended.md, 20_memory.md R29 to R31). -/

namespace Sys2Proof.Machine

/-- The nibble a speed operand is sent as (R70, R83). -/
def speedNibble (v : Speed) : Nibble := BitVec.ofNat 4 (quantize v.toInt)

theorem speedNibble_toNat (v : Speed) : (speedNibble v).toNat = quantize v.toInt :=
  BitVec.toNat_ofNat .. ▸ Nat.mod_eq_of_lt (quantize_lt _)

/-! ## The ten operations (R92, R93, R99, R103, R107) -/

theorem exec_soPwm {s : State} {i : SoInstance} (h : s.so[s.sel]? = some i) (v : Speed) :
    exec (.soPwm v) s = .next (respond (.so s.sel) (.ok (render (soPattern i.t i.ch 0 i.out (speedNibble v))))
      { s with so := s.so.set s.sel { i with t := flipBit i.t } }) := by
  simp only [exec, execSoPwm, withSo_of_some h, ← speedNibble_toNat, frameSo_eq, deliver_ok, setSoT_eq h]

theorem exec_soDisc {s : State} {i : SoInstance} (h : s.so[s.sel]? = some i) (d : Nibble) :
    exec (.soDisc d) s = .next (respond (.so s.sel) (.ok (render (soPattern i.t i.ch 1 i.out d))) s) := by
  simp only [exec, execSoDisc, withSo_of_some h, frameSo_eq, deliver_ok]

theorem exec_cpwm {s : State} {i : CpwmInstance} (h : s.cpwm[s.sel]? = some i) (r b : Speed) :
    exec (.cpwm r b) s =
      .next (respond (.cpwm s.sel) (.ok (render (cpwmPattern i.ch (speedNibble b) (speedNibble r)))) s) := by
  simp only [exec, execCpwm, withCpwm_of_some h, ← speedNibble_toNat, frameCpwm_eq, deliver_ok]

theorem exec_cdir {s : State} {i : CdirInstance} (h : s.cdir[s.sel]? = some i) (r b : DirectState) :
    exec (.cdir r b) s =
      .next (respond (.cdir s.sel) (.ok (render (extPattern 0 0 i.ch 0 1 (b.code ++ r.code)))) s) := by
  simp only [exec, execCdir, withCdir_of_some h, directData_eq, frameExt_eq, deliver_ok]

/-- The six extended operations are one body (R107). -/
theorem exec_extCommand (c : ExtCommand) (s : State) : exec c.instr s = encodeExt c s := by
  cases c <;> rfl

theorem exec_ext {s : State} {i : ExtInstance} (h : s.ext[s.sel]? = some i) (c : ExtCommand) :
    exec c.instr s = .next (respond (.ext s.sel) (.ok (render (extPattern i.t 0 i.ch i.a 0 (s.codes.code c))))
      { s with ext := s.ext.set s.sel
                { i with t := flipBit i.t, a := if c = .toggleAddress then flipBit i.a else i.a } }) := by
  simp only [exec_extCommand, encodeExt, withExt_of_some h, frameExt_eq, deliver_ok, commitExt_eq h]

/-! ## Decoding and accepting a record -/

/-- An accepted record that names an operation runs it on the interface's own encoder (R29, R30). -/
theorem acceptCommand_of_decode_ok {r : Request} {s : State} {i : Instr} (h : s.has (requestPort r) = true)
    (hd : r.decode = .ok i) : acceptCommand r s = exec i { s with sel := r.index } := by
  simp only [acceptCommand, h, if_true, hd]

/-- An accepted record that names no operation is answered with its error (R121). -/
theorem acceptCommand_of_decode_error {r : Request} {s : State} {e : ProtocolError} (h : s.has (requestPort r) = true)
    (hd : r.decode = .error e) : acceptCommand r s = .next (respond (requestPort r) (.err e) s) := by
  simp only [acceptCommand, h, if_true, hd, raiseProtocolError]

theorem decode_so_of_kind_zero {k : Nat} {cmd : SoCmd} (h : cmd.kind = 0) :
    (Request.so k cmd).decode = .ok (.soPwm cmd.speed) :=
  congrArg Except.ok (if_pos h)

theorem decode_so_of_kind_ne_zero {k : Nat} {cmd : SoCmd} (h : cmd.kind ≠ 0) :
    (Request.so k cmd).decode = .ok (.soDisc cmd.code) :=
  congrArg Except.ok (if_neg h)

/-- A selector names a command exactly up to 5, and 4 names ToggleAddress (R65). -/
theorem ofSelector_spec (x : BitVec 3) :
    ((ExtCommand.ofSelector x).isSome ↔ x.toNat ≤ 5) ∧ (ExtCommand.ofSelector x = some .toggleAddress ↔ x = 4) := by
  revert x
  decide

theorem decode_ext_of_some {k : Nat} {cmd : ExtCmd} {c : ExtCommand} (h : ExtCommand.ofSelector cmd.xcmd = some c) :
    (Request.ext k cmd).decode = .ok c.instr := by
  simp only [Request.decode, ExtCmd.decode, h]

theorem decode_ext_of_none {k : Nat} {cmd : ExtCmd} (h : ExtCommand.ofSelector cmd.xcmd = none) :
    (Request.ext k cmd).decode = .error .badCommand := by
  simp only [Request.decode, ExtCmd.decode, h]

/-- A record is legal where its selector names a command (R65, R121). -/
theorem legal_ext (k : Nat) (cmd : ExtCmd) :
    (Request.ext k cmd).legal = (ExtCommand.ofSelector cmd.xcmd).isSome :=
  Bool.eq_iff_iff.mpr (decide_eq_true_iff.trans (ofSelector_spec _).1.symm)

end Sys2Proof.Machine
end

section
/-! PROOFS. A bank seen through its interfaces: the view at an interface, and writing one view back (10_state.md R13 to R18). Resets
and commands only ever put a view of unchanged configuration at their own interface. -/

namespace Sys2Proof.Machine

/-! ## Reading the view at an interface -/

/-- The view at an interface is read from the banks alone. -/
theorem view_of_banks {s t : State} (hso : t.so = s.so) (hcpwm : t.cpwm = s.cpwm) (hcdir : t.cdir = s.cdir)
    (hext : t.ext = s.ext) (p : Port) : t.view p = s.view p := by
  cases p <;> simp only [State.view, hso, hcpwm, hcdir, hext]

@[simp] theorem view_respond (p q : Port) (r : Result) (s : State) : (respond q r s).view p = s.view p :=
  view_of_banks rfl rfl rfl rfl p

@[simp] theorem view_recordSend (p : Port) (w : PulseSeq) (o : SendOutcome) (s : State) :
    (recordSend w o s).view p = s.view p :=
  view_of_banks rfl rfl rfl rfl p

@[simp] theorem view_with_pending (p : Port) (s : State) (rest : List HostEvent) :
    ({ s with pending := rest } : State).view p = s.view p :=
  view_of_banks rfl rfl rfl rfl p

@[simp] theorem view_powerOff (p : Port) (s : State) : (powerOff s).view p = none := by
  cases p <;> rfl

/-- An interface exists exactly where there is something to view. -/
theorem has_eq_isSome_view (s : State) (p : Port) : s.has p = (s.view p).isSome :=
  Bool.eq_iff_iff.mpr (by cases p <;> simp [State.has, State.view])

theorem has_of_view {s : State} {p : Port} {v : InstanceView} (h : s.view p = some v) : s.has p = true := by
  rw [has_eq_isSome_view, h, Option.isSome_some]

theorem view_of_has {s : State} {p : Port} (h : s.has p = true) : ∃ v, s.view p = some v :=
  Option.isSome_iff_exists.mp (has_eq_isSome_view s p ▸ h)

/-- A construction leaves every view as it is (R137). -/
theorem view_construct_of_some {s : State} {p : Port} {v : InstanceView} (c : InstanceConfig) (h : s.view p = some v) :
    (construct c s).view p = some v := by
  cases p <;> cases c <;> try exact h
  all_goals
    obtain ⟨i, hi, rfl⟩ := Option.map_eq_some_iff.mp h
    exact Option.map_eq_some_iff.mpr ⟨i, (List.getElem?_append_left (index_lt_of_getElem? hi)).trans hi, rfl⟩

/-! ## Writing the view at an interface -/

/-- The parameters of a view: what its interface was constructed with (R18). -/
def InstanceView.config : InstanceView → InstanceConfig
  | .so i => .so i.ch i.out
  | .cpwm i => .cpwm i.ch
  | .cdir i => .cdir i.ch
  | .ext i => .ext i.ch

/-- `s` with `v` at an interface; unchanged if `v` is of another protocol. -/
def State.put (s : State) : Port → InstanceView → State
  | .so k, .so i => { s with so := s.so.set k i }
  | .cpwm k, .cpwm i => { s with cpwm := s.cpwm.set k i }
  | .cdir k, .cdir i => { s with cdir := s.cdir.set k i }
  | .ext k, .ext i => { s with ext := s.ext.set k i }
  | _, _ => s

@[simp] theorem put_codes (s : State) (p : Port) (v : InstanceView) : (s.put p v).codes = s.codes := by
  unfold State.put; split <;> rfl

@[simp] theorem put_responses (s : State) (p : Port) (v : InstanceView) : (s.put p v).responses = s.responses := by
  unfold State.put; split <;> rfl

/-- Writing at one interface is not seen at another. -/
theorem view_put_of_ne {s : State} {p q : Port} (v : InstanceView) (h : p ≠ q) : (s.put p v).view q = s.view q := by
  unfold State.put
  split
  case h_5 => rfl
  all_goals
    cases q <;> try rfl
    exact congrArg (Option.map _) (List.getElem?_set_ne fun hk => h (congrArg _ hk))

/-- What is written in place of a view of the same configuration is what is read back. -/
theorem view_put_self {s : State} {p : Port} {v w : InstanceView} (hv : s.view p = some v) (hw : w.config = v.config) :
    (s.put p w).view p = some w := by
  cases p
  all_goals
    obtain ⟨i, hi, rfl⟩ := Option.map_eq_some_iff.mp hv
    cases w <;> simp only [InstanceView.config, reduceCtorEq] at hw
    exact congrArg (Option.map _) (List.getElem?_set_self (index_lt_of_getElem? hi))

/-- Setting an entry to what it is changes nothing. -/
theorem set_eq_self_of_getElem? {α : Type} {l : List α} {k : Nat} {x : α} (h : l[k]? = some x) : l.set k x = l := by
  obtain ⟨hk, rfl⟩ := List.getElem?_eq_some_iff.mp h
  exact List.set_getElem_self hk

/-- Writing back the view that is there changes nothing. -/
theorem put_of_view {s : State} {p : Port} {v : InstanceView} (hv : s.view p = some v) : s.put p v = s := by
  cases p
  all_goals
    obtain ⟨i, hi, rfl⟩ := Option.map_eq_some_iff.mp hv
    simp only [State.put, set_eq_self_of_getElem? hi]

/-- A view of the same configuration leaves the list of all configurations. -/
theorem configs_put {s : State} {p : Port} {v w : InstanceView} (hv : s.view p = some v) (hw : w.config = v.config) :
    (s.put p w).configs = s.configs := by
  cases p
  all_goals
    obtain ⟨i, hi, rfl⟩ := Option.map_eq_some_iff.mp hv
    cases w <;> simp only [InstanceView.config, reduceCtorEq] at hw
    simp only [State.put, State.configs, List.map_set, hw]
    rw [set_eq_self_of_getElem? (by simp [hi])]

end Sys2Proof.Machine
end

section
/-! PROOFS. A command as a function of its own interface's view (R16, R42), and the statements about what a step can change
(10_state.md R14 to R18, R22, R26; 20_memory.md R42, R43; 70_reset_and_hazards.md R136, R137, R139). -/

namespace Sys2Proof.Machine

/-- What a command record yields from the view it is presented to: the result and the view left. `none` where the record is of
another protocol. -/
def InstanceView.answer (codes : ExtCode) : Request → InstanceView → Option (Result × InstanceView)
  | .so _ cmd, .so i =>
    if cmd.kind = 0 then
      some (.ok (render (soPattern i.t i.ch 0 i.out (speedNibble cmd.speed))), .so { i with t := flipBit i.t })
    else some (.ok (render (soPattern i.t i.ch 1 i.out cmd.code)), .so i)
  | .cpwm _ cmd, .cpwm i =>
    some (.ok (render (cpwmPattern i.ch (speedNibble cmd.speedBlue) (speedNibble cmd.speedRed))), .cpwm i)
  | .cdir _ cmd, .cdir i =>
    some (.ok (render (extPattern 0 0 i.ch 0 1 ((DirectState.ofCode cmd.blue).code ++ (DirectState.ofCode cmd.red).code))),
      .cdir i)
  | .ext _ cmd, .ext i =>
    match ExtCommand.ofSelector cmd.xcmd with
    | some c =>
      some (.ok (render (extPattern i.t 0 i.ch i.a 0 (codes.code c))),
        .ext { i with t := flipBit i.t, a := if c = .toggleAddress then flipBit i.a else i.a })
    | none => some (.err .badCommand, .ext i)
  | _, _ => none

/-- The view after a reset: the same configuration, every register 0 (R137). -/
def InstanceView.cleared : InstanceView → InstanceView
  | .so i => .so { i with t := 0 }
  | .cpwm i => .cpwm i
  | .cdir i => .cdir i
  | .ext i => .ext { i with t := 0, a := 0 }

theorem config_cleared (v : InstanceView) : v.cleared.config = v.config := by
  cases v <;> rfl

/-! ## The answer, protocol by protocol -/

/-- An SO view: T flips for SO.PWM and stays for SO.DISC (R92, R93). -/
theorem answer_so {codes : ExtCode} {k : Nat} {cmd : SoCmd} {i : SoInstance} {res : Result} {w : InstanceView}
    (h : (InstanceView.so i).answer codes (.so k cmd) = some (res, w)) :
    w = .so i ∨ (w = .so { i with t := flipBit i.t } ∧ cmd.kind = 0) := by
  simp only [InstanceView.answer] at h
  split at h
  case isTrue hk => cases h; exact .inr ⟨rfl, hk⟩
  case isFalse => cases h; exact .inl rfl

/-- An EXT view: T flips for a legal record and A with it for EXT.TGA only; an illegal record changes nothing (R107, R121). -/
theorem answer_ext {codes : ExtCode} {k : Nat} {cmd : ExtCmd} {i : ExtInstance} {res : Result} {w : InstanceView}
    (h : (InstanceView.ext i).answer codes (.ext k cmd) = some (res, w)) :
    w = .ext i ∨ (w = .ext { i with t := flipBit i.t, a := if cmd.xcmd = 4 then flipBit i.a else i.a } ∧
      cmd.xcmd.toNat ≤ 5) := by
  simp only [InstanceView.answer] at h
  split at h
  case h_1 c hc =>
    obtain ⟨legal, toggles⟩ := ofSelector_spec cmd.xcmd
    rw [hc] at legal toggles
    cases h
    exact .inr ⟨by simp only [← toggles, Option.some.injEq], legal.mp rfl⟩
  case h_2 => cases h; exact .inl rfl

/-- No answer changes the configuration (R18). -/
theorem config_answer {codes : ExtCode} {r : Request} {v w : InstanceView} {res : Result}
    (h : v.answer codes r = some (res, w)) : w.config = v.config := by
  cases r <;> cases v <;> try cases h
  case so.so => obtain rfl | ⟨rfl, -⟩ := answer_so h <;> rfl
  case cpwm.cpwm => rfl
  case cdir.cdir => rfl
  case ext.ext => obtain rfl | ⟨rfl, -⟩ := answer_ext h <;> rfl

/-! ## The state after an answer -/

/-- `s` after a record was answered with `res`, leaving `w` at its interface. A record that names no operation selects nothing
(R121, log entry 5). -/
def State.answered (s : State) (r : Request) (res : Result) (w : InstanceView) : State :=
  respond (requestPort r) res
    (({ s with sel := if r.legal then r.index else s.sel } : State).put (requestPort r) w)

@[simp] theorem answered_codes (s : State) (r : Request) (res : Result) (w : InstanceView) :
    (s.answered r res w).codes = s.codes :=
  put_codes ..

@[simp] theorem answered_responses (s : State) (r : Request) (res : Result) (w : InstanceView) :
    (s.answered r res w).responses = s.responses ++ [⟨requestPort r, res⟩] := by
  rw [State.answered, respond_responses, put_responses]

theorem view_answered_self {s : State} {r : Request} {v w : InstanceView} {res : Result}
    (viewed : s.view (requestPort r) = some v) (config : w.config = v.config) :
    (s.answered r res w).view (requestPort r) = some w :=
  (view_respond ..).trans (view_put_self viewed config)

/-- No other interface sees the answer (R16). -/
theorem view_answered_of_ne {s : State} {r : Request} {q : Port} (res : Result) (w : InstanceView)
    (h : q ≠ requestPort r) : (s.answered r res w).view q = s.view q :=
  (view_respond ..).trans ((view_put_of_ne w h.symm).trans (view_of_banks rfl rfl rfl rfl q))

/-- No other interface gains a response (R16, R31). -/
theorem responsesOf_answered_of_ne {s : State} {r : Request} {q : Port} (res : Result) (w : InstanceView)
    (h : q ≠ requestPort r) : (s.answered r res w).responsesOf q = s.responsesOf q := by
  simp [State.responsesOf, h.symm]

/-! ## Accepting a command and resetting are local -/

/-- An accepted command is its answer: apart from EXT_CODE it reads the view at its own interface only (R16, R42). -/
theorem acceptCommand_eq {s : State} {r : Request} {v : InstanceView} (hv : s.view (requestPort r) = some v) :
    ∃ res w, v.answer s.codes r = some (res, w) ∧ acceptCommand r s = .next (s.answered r res w) := by
  have present := has_of_view hv
  have unchanged := put_of_view (s := { s with sel := if r.legal then r.index else s.sel }) hv
  cases r with
  | so k cmd =>
    obtain ⟨i, hi, rfl⟩ := Option.map_eq_some_iff.mp hv
    by_cases hk : cmd.kind = 0
    · refine ⟨_, _, if_pos hk, ?_⟩
      rw [acceptCommand_of_decode_ok present (decode_so_of_kind_zero hk)]
      exact exec_soPwm (s := { s with sel := k }) hi cmd.speed
    · refine ⟨_, _, if_neg hk, ?_⟩
      rw [acceptCommand_of_decode_ok present (decode_so_of_kind_ne_zero hk), State.answered, unchanged]
      exact exec_soDisc (s := { s with sel := k }) hi cmd.code
  | cpwm k cmd =>
    obtain ⟨i, hi, rfl⟩ := Option.map_eq_some_iff.mp hv
    refine ⟨_, _, rfl, ?_⟩
    rw [acceptCommand_of_decode_ok present rfl, State.answered, unchanged]
    exact exec_cpwm (s := { s with sel := k }) hi cmd.speedRed cmd.speedBlue
  | cdir k cmd =>
    obtain ⟨i, hi, rfl⟩ := Option.map_eq_some_iff.mp hv
    refine ⟨_, _, rfl, ?_⟩
    rw [acceptCommand_of_decode_ok present rfl, State.answered, unchanged]
    exact exec_cdir (s := { s with sel := k }) hi (DirectState.ofCode cmd.red) (DirectState.ofCode cmd.blue)
  | ext k cmd =>
    obtain ⟨i, hi, rfl⟩ := Option.map_eq_some_iff.mp hv
    cases hc : ExtCommand.ofSelector cmd.xcmd with
    | some c =>
      refine ⟨_, _, by simp only [InstanceView.answer, hc]; rfl, ?_⟩
      rw [acceptCommand_of_decode_ok present (decode_ext_of_some hc), State.answered, legal_ext, hc]
      exact exec_ext (s := { s with sel := k }) hi c
    | none =>
      refine ⟨_, _, by simp only [InstanceView.answer, hc]; rfl, ?_⟩
      rw [acceptCommand_of_decode_error present (decode_ext_of_none hc), State.answered, unchanged, legal_ext, hc]
      rfl

/-- A reset clears the view at its interface (R137). -/
theorem resetInstance_eq {s : State} {p : Port} {v : InstanceView} (hv : s.view p = some v) :
    resetInstance p s = .next (s.put p v.cleared) := by
  have unchanged := put_of_view hv
  simp only [resetInstance, has_of_view hv, if_true]
  cases p with
  | so k | ext k =>
    obtain ⟨i, hi, rfl⟩ := Option.map_eq_some_iff.mp hv
    simp only [modify_eq_set hi, InstanceView.cleared, State.put]
  | cpwm k | cdir k =>
    obtain ⟨i, hi, rfl⟩ := Option.map_eq_some_iff.mp hv
    exact congrArg _ unchanged.symm

/-! ## Everything a step can do -/

/-- A reset completes only at an interface that exists. -/
theorem has_of_resetInstance {p : Port} {s t : State} (h : resetInstance p s = .next t) : s.has p = true := by
  by_contra absent
  cases (resetInstance_of_absent (Bool.eq_false_iff.mpr absent)).symm.trans h

/-- A command completes only at an interface that exists. -/
theorem has_of_acceptCommand {r : Request} {s t : State} (h : acceptCommand r s = .next t) :
    s.has (requestPort r) = true := by
  by_contra absent
  cases (acceptCommand_of_absent (Bool.eq_false_iff.mpr absent)).symm.trans h

/-- The ways a step can go: one for every action of the host, and the idle one. -/
inductive Taken (s : State) : State → Prop
  | idle (pending : s.pending = []) : Taken s s
  | construct {c : InstanceConfig} {rest : List HostEvent} (pending : s.pending = .construct c :: rest) :
      Taken s (construct c { s with pending := rest })
  | reset {p : Port} {v : InstanceView} {rest : List HostEvent} (pending : s.pending = .reset p :: rest)
      (viewed : s.view p = some v) : Taken s (({ s with pending := rest } : State).put p v.cleared)
  | command {r : Request} {v w : InstanceView} {res : Result} {rest : List HostEvent}
      (pending : s.pending = .command r :: rest) (viewed : s.view (requestPort r) = some v)
      (answered : v.answer s.codes r = some (res, w)) :
      Taken s (({ s with pending := rest } : State).answered r res w)
  | send {p : PulseSeq} {o : SendOutcome} {rest : List HostEvent} (pending : s.pending = .send p o :: rest) :
      Taken s (recordSend p o { s with pending := rest })
  | powerOff {rest : List HostEvent} (pending : s.pending = .powerOff :: rest) :
      Taken s (powerOff { s with pending := rest })

/-- A step on a command to an interface that exists. -/
theorem step_command {s : State} {r : Request} {rest : List HostEvent} {v : InstanceView}
    (pending : s.pending = .command r :: rest) (viewed : s.view (requestPort r) = some v) :
    ∃ res w, v.answer s.codes r = some (res, w) ∧
      step s = .next (({ s with pending := rest } : State).answered r res w) := by
  rw [step_of_pending pending]
  exact acceptCommand_eq (s := { s with pending := rest }) viewed

/-- A step that answers a next state goes one of these ways. -/
theorem taken_of_step {s t : State} (h : step s = .next t) : Taken s t := by
  cases hp : s.pending with
  | nil =>
    simp only [step, takeNext, hp] at h
    cases h
    exact .idle hp
  | cons e rest =>
    cases e with
    | construct c => cases (step_of_pending hp).symm.trans h; exact .construct hp
    | send p o => cases (step_of_pending hp).symm.trans h; exact .send hp
    | powerOff => cases (step_of_pending hp).symm.trans h; exact .powerOff hp
    | reset p =>
      have stepped := (step_of_pending hp).symm.trans h
      obtain ⟨v, viewed⟩ := view_of_has (has_of_resetInstance stepped)
      cases (resetInstance_eq viewed).symm.trans stepped
      exact .reset hp viewed
    | command r =>
      obtain ⟨v, viewed⟩ := view_of_has (has_of_acceptCommand ((step_of_pending hp).symm.trans h))
      obtain ⟨res, w, answered, stepped⟩ := step_command hp viewed
      cases stepped.symm.trans h
      exact .command hp viewed answered

/-! ## Configurations -/

/-- Settles O45: constructions and power-off aside, a step writes at most one view, of the configuration that was there. -/
theorem configurationNeverChanges : Obligations.ConfigurationNeverChanges := by
  intro s t h
  cases taken_of_step h with
  | idle => exact ⟨rfl, fun _ _ => rfl⟩
  | construct pending => exact ⟨construct_codes .., fun notConstruct _ => absurd pending (notConstruct _ _)⟩
  | reset _ viewed => exact ⟨put_codes .., fun _ _ => configs_put viewed (config_cleared _)⟩
  | command _ viewed answered => exact ⟨answered_codes .., fun _ _ => configs_put viewed (config_answer answered)⟩
  | send => exact ⟨rfl, fun _ _ => rfl⟩
  | powerOff pending => exact ⟨rfl, fun _ notPowerOff => absurd pending (notPowerOff _)⟩

/-! ## Power-off -/

/-- Settles O40: the step empties the four banks, and the lemmas on `powerOff` say the rest. -/
theorem powerOffEndsEveryLifetime : Obligations.PowerOffEndsEveryLifetime := by
  intro s rest pending
  exact ⟨_, step_of_pending pending, fun p => view_powerOff p _, rfl, rfl, rfl, rfl, rfl⟩

/-! ## One command and the other interfaces -/

/-- Settles O47: a command writes the view and appends the response of its own interface. -/
theorem commandLeavesOtherInstancesAlone : Obligations.CommandLeavesOtherInstancesAlone := by
  intro s t r rest q pending h hq
  obtain ⟨v, viewed⟩ := view_of_has (has_of_acceptCommand ((step_of_pending pending).symm.trans h))
  obtain ⟨res, w, -, stepped⟩ := step_command pending viewed
  cases stepped.symm.trans h
  exact ⟨(view_answered_of_ne res w hq).trans (view_with_pending ..), responsesOf_answered_of_ne res w hq⟩

/-- Settles O48: both states give the one answer of the common view, and leave the view that it says. -/
theorem responseDependsOnOwnInstanceOnly : Obligations.ResponseDependsOnOwnInstanceOnly := by
  intro s s' r rest rest' pending pending' codes sameView present
  obtain ⟨v, viewed⟩ := view_of_has present
  have viewed' := sameView.symm.trans viewed
  obtain ⟨res, w, answered, stepped⟩ := step_command pending viewed
  obtain ⟨res', w', answered', stepped'⟩ := step_command pending' viewed'
  cases (codes ▸ answered).symm.trans answered'
  have config := config_answer answered
  have left := view_answered_self (s := { s with pending := rest }) (res := res) viewed config
  have left' := view_answered_self (s := { s' with pending := rest' }) (res := res) viewed' config
  exact ⟨_, _, ⟨requestPort r, res⟩, stepped, stepped', answered_responses .., answered_responses ..,
    left.trans left'.symm⟩

/-! ## Registers -/

/-- How the view at an interface can differ after a step: by the answer to a command presented there, or by its reset. -/
theorem view_change_of_step {s t : State} {q : Port} {v w : InstanceView} (h : step s = .next t)
    (hv : s.view q = some v) (hw : t.view q = some w) :
    w = v ∨
      (∃ r rest res, s.pending = .command r :: rest ∧ requestPort r = q ∧ v.answer s.codes r = some (res, w)) ∨
      (∃ rest, s.pending = .reset q :: rest ∧ w = v.cleared) := by
  have unchanged (same : t.view q = some v) : w = v := Option.some.inj (hw.symm.trans same)
  cases taken_of_step h with
  | idle => exact .inl (unchanged hv)
  | construct => exact .inl (unchanged (view_construct_of_some _ ((view_with_pending ..).trans hv)))
  | send => exact .inl (unchanged ((view_recordSend ..).trans ((view_with_pending ..).trans hv)))
  | powerOff => cases hw.symm.trans (view_powerOff q _)
  | @reset p v' rest pending viewed =>
    by_cases hp : p = q
    · subst hp
      cases viewed.symm.trans hv
      cases hw.symm.trans (view_put_self viewed (config_cleared v))
      exact .inr (.inr ⟨rest, pending, rfl⟩)
    · exact .inl (unchanged ((view_put_of_ne _ hp).trans ((view_with_pending ..).trans hv)))
  | @command r v' w' res rest pending viewed answered =>
    by_cases hq : q = requestPort r
    · subst hq
      cases viewed.symm.trans hv
      cases hw.symm.trans (view_answered_self viewed (config_answer answered))
      exact .inr (.inl ⟨r, rest, res, pending, rfl, answered⟩)
    · exact .inl (unchanged ((view_answered_of_ne res w' hq).trans ((view_with_pending ..).trans hv)))

/-- R14, R22, R139 for an SO view. -/
theorem so_change_of_step {s t : State} {k : Nat} {i j : SoInstance} (h : step s = .next t) (hi : s.so[k]? = some i)
    (hj : t.so[k]? = some j) :
    j = i ∨
      (j = { i with t := 1 - i.t } ∧ ∃ speed code rest, s.pending = .command (.so k ⟨0, speed, code⟩) :: rest) ∨
      (j = { i with t := 0 } ∧ ∃ rest, s.pending = .reset (.so k) :: rest) := by
  obtain same | ⟨r, rest, res, pending, port, answered⟩ | ⟨rest, pending, cleared⟩ :=
    view_change_of_step (q := .so k) h (congrArg (Option.map _) hi) (congrArg (Option.map _) hj)
  · exact .inl (InstanceView.so.inj same)
  · rcases r with ⟨_, kind, speed, code⟩ | _ | _ | _ <;> cases port
    obtain same | ⟨flipped, rfl : kind = 0⟩ := answer_so answered
    · exact .inl (InstanceView.so.inj same)
    · exact .inr (.inl ⟨InstanceView.so.inj flipped, speed, code, rest, pending⟩)
  · exact .inr (.inr ⟨InstanceView.so.inj cleared, rest, pending⟩)

/-- R14, R15, R22, R139 for an EXT view. -/
theorem ext_change_of_step {s t : State} {k : Nat} {i j : ExtInstance} (h : step s = .next t) (hi : s.ext[k]? = some i)
    (hj : t.ext[k]? = some j) :
    j = i ∨
      (∃ x rest, s.pending = .command (.ext k ⟨x⟩) :: rest ∧ x.toNat ≤ 5 ∧
        j = { i with t := 1 - i.t, a := if x = 4 then 1 - i.a else i.a }) ∨
      (j = { i with t := 0, a := 0 } ∧ ∃ rest, s.pending = .reset (.ext k) :: rest) := by
  obtain same | ⟨r, rest, res, pending, port, answered⟩ | ⟨rest, pending, cleared⟩ :=
    view_change_of_step (q := .ext k) h (congrArg (Option.map _) hi) (congrArg (Option.map _) hj)
  · exact .inl (InstanceView.ext.inj same)
  · rcases r with _ | _ | _ | ⟨_, x⟩ <;> cases port
    obtain same | ⟨flipped, legal⟩ := answer_ext answered
    · exact .inl (InstanceView.ext.inj same)
    · exact .inr (.inl ⟨x.xcmd, rest, pending, legal, InstanceView.ext.inj flipped⟩)
  · exact .inr (.inr ⟨InstanceView.ext.inj cleared, rest, pending⟩)

/-- Settles O46: the change of a view, read for SO and for EXT. -/
theorem registersChangeOnlyByFlipOrReset : Obligations.RegistersChangeOnlyByFlipOrReset :=
  fun _ _ h => ⟨fun _ _ _ => so_change_of_step h, fun _ _ _ => ext_change_of_step h⟩

end Sys2Proof.Machine
end

section
/-! PROOFS. What changing the register bits changes in a frame (30_encoding.md R49, R51; 41_packer_lrc_render.md R78, R79), and the
number of elements on the pulse stream (20_memory.md R33, 41_packer_lrc_render.md R86). -/

namespace Sys2Proof.Machine

/-! ## The register bits of a frame -/

/-- Two checksums of R78: what the constant and the common term contribute cancels. -/
theorem checksum_xor_checksum (k z x x' y y' : Nibble) :
    (k ^^^ (x ^^^ y ^^^ z)) ^^^ (k ^^^ (x' ^^^ y' ^^^ z)) = (x ^^^ x') ^^^ (y ^^^ y') :=
  calc (k ^^^ (x ^^^ y ^^^ z)) ^^^ (k ^^^ (x' ^^^ y' ^^^ z))
    _ = ((x ^^^ x') ^^^ (y ^^^ y')) ^^^ ((k ^^^ k) ^^^ (z ^^^ z)) := by ac_rfl
    _ = (x ^^^ x') ^^^ (y ^^^ y') := by simp only [BitVec.xor_self, BitVec.xor_zero]

/-- A change of T is a change of the top bit of the first nibble. -/
theorem toggleNibble_xor (t t' e : Bit) (c : ChannelField) :
    (t.setWidth 4 * (8 : Nibble) + e.setWidth 4 * (4 : Nibble) + c.setWidth 4) ^^^
      (t'.setWidth 4 * (8 : Nibble) + e.setWidth 4 * (4 : Nibble) + c.setWidth 4) =
      (t ^^^ t').setWidth 4 * (8 : Nibble) := by
  revert t t' e c; decide

/-- A change of A is a change of the top bit of the second nibble. -/
theorem addressNibble_xor (a a' : Bit) (m : BitVec 3) :
    (a.setWidth 4 * (8 : Nibble) + m.setWidth 4) ^^^ (a'.setWidth 4 * (8 : Nibble) + m.setWidth 4) =
      (a ^^^ a').setWidth 4 * (8 : Nibble) := by
  revert a a' m; decide

/-- Two SO frames that differ in T only: the Toggle bit and the LRC bit of its column. -/
theorem soPattern_xor_flipBit (t : Bit) (c : ChannelField) (m o : Bit) (d : Nibble) :
    soPattern t c m o d ^^^ soPattern (flipBit t) c m o d = 0x8008 := by
  have toggled : t ^^^ flipBit t = 1 := by revert t; decide
  have column : (t.setWidth 4 * (8 : Nibble) + c.setWidth 4) ^^^
      ((flipBit t).setWidth 4 * (8 : Nibble) + c.setWidth 4) = 8 := by
    clear toggled; revert t c; decide
  refine (BitVec.xor_append ..).trans ?_
  simp only [BitVec.xor_append, BitVec.xor_self, soChecksum, checksum_xor_checksum, toggled, column]
  decide

/-- Two EXT frames that differ in T and A only: these bits, and each one's change of the LRC bit of their common column. -/
theorem extPattern_xor (t t' e : Bit) (c : ChannelField) (a a' : Bit) (m : BitVec 3) (f : Nibble) :
    extPattern t e c a m f ^^^ extPattern t' e c a' m f =
      (t ^^^ t') ++ (0 : Bit) ++ (0 : ChannelField) ++ (a ^^^ a') ++ (0 : BitVec 3) ++ (0 : Nibble) ++
        ((t ^^^ t').setWidth 4 * (8 : Nibble) ^^^ (a ^^^ a').setWidth 4 * (8 : Nibble)) := by
  refine (BitVec.xor_append ..).trans ?_
  simp only [BitVec.xor_append, BitVec.xor_self, extChecksum, checksum_xor_checksum, toggleNibble_xor, addressNibble_xor]
  rfl

/-- Two EXT frames that differ in T only (R115). -/
theorem extPattern_xor_flipBit (t e : Bit) (c : ChannelField) (a : Bit) (m : BitVec 3) (f : Nibble) :
    extPattern t e c a m f ^^^ extPattern (flipBit t) e c a m f = 0x8008 := by
  rw [extPattern_xor]
  revert t a; decide

/-- Two EXT frames that differ in T and A: the two changes of the LRC bit cancel (R116). -/
theorem extPattern_xor_flipBit_flipBit (t e : Bit) (c : ChannelField) (a : Bit) (m : BitVec 3) (f : Nibble) :
    extPattern t e c a m f ^^^ extPattern (flipBit t) e c (flipBit a) m f = 0x8800 := by
  rw [extPattern_xor]
  revert t a; decide

/-- The one bit of a register value, as the statements write it. -/
theorem getLsbD_zero_eq (b : Bit) : b.getLsbD 0 = decide (b = 1) := by
  revert b; decide

theorem soPattern_getLsbD_fifteen (t : Bit) (c : ChannelField) (m o : Bit) (d : Nibble) :
    (soPattern t c m o d).getLsbD 15 = decide (t = 1) := by
  simp only [soPattern, BitVec.getLsbD_append]
  exact getLsbD_zero_eq t

theorem extPattern_getLsbD_fifteen (t e : Bit) (c : ChannelField) (a : Bit) (m : BitVec 3) (f : Nibble) :
    (extPattern t e c a m f).getLsbD 15 = decide (t = 1) := by
  simp only [extPattern, BitVec.getLsbD_append]
  exact getLsbD_zero_eq t

theorem extPattern_getLsbD_eleven (t e : Bit) (c : ChannelField) (a : Bit) (m : BitVec 3) (f : Nibble) :
    (extPattern t e c a m f).getLsbD 11 = decide (a = 1) := by
  simp only [extPattern, BitVec.getLsbD_append]
  exact getLsbD_zero_eq a

/-! ## The stream of a frame -/

theorem length_render (f : Frame) : (render f).length = 36 := by
  simp [render, burst, bitPair]

theorem length_beats (p : PulseSeq) : (beats p).length = p.length := by
  induction p using beats.induct with
  | case1 => rfl
  | case2 d => rfl
  | case3 d e rest ih => simp [beats, ih]

end Sys2Proof.Machine
end

section
/-! PROOFS. The statements about the command and response interfaces (20_memory.md R29 to R31, R42, R43, R47; 60_exceptions.md R127;
70_reset_and_hazards.md R145): what is answered, and what a run of a few accepted commands leaves at every interface. -/

namespace Sys2Proof.Machine

/-! ## The step on one pending action -/

/-- With nothing pending a step changes nothing (log entry 8). -/
theorem step_of_pending_nil {s : State} (h : s.pending = []) : step s = .next s := by
  simp only [step, takeNext, h]

/-- Settles O35: accepting a record that decodes is `exec` of its operation, and the idle step is the model's own clause. -/
theorem stepRunsTheNamedOperation : Obligations.StepRunsTheNamedOperation := by
  refine ⟨fun s r rest i pending decoded present => ?_, fun s => step_of_pending_nil⟩
  rw [step_of_pending pending]
  exact acceptCommand_of_decode_ok ((has_with_host_side s _ s.sel rest).trans present) decoded

/-! ## What is answered -/

/-- A legal record is answered with the rendering of a frame, an illegal one with BadCommand (R31, R65, R121). -/
theorem result_answer {codes : ExtCode} {r : Request} {v w : InstanceView} {res : Result}
    (h : v.answer codes r = some (res, w)) :
    (r.legal = true ∧ ∃ f, res = .ok (render f)) ∨ (r.legal = false ∧ res = .err .badCommand) := by
  cases r <;> cases v <;> try cases h
  case so.so =>
    simp only [InstanceView.answer] at h
    split at h
    all_goals
      cases h
      exact .inl ⟨rfl, _, rfl⟩
  case cpwm.cpwm => exact .inl ⟨rfl, _, rfl⟩
  case cdir.cdir => exact .inl ⟨rfl, _, rfl⟩
  case ext.ext =>
    simp only [InstanceView.answer] at h
    split at h
    case h_1 c hc => cases h; exact .inl ⟨by rw [legal_ext, hc]; rfl, _, rfl⟩
    case h_2 hc => cases h; exact .inr ⟨by rw [legal_ext, hc]; rfl, rfl⟩

/-- SO.PWM: the frame carries T, and T flips (R92). -/
theorem answer_soPwm (codes : ExtCode) (k : Nat) (i : SoInstance) (speed : Speed) (d : Nibble) :
    (InstanceView.so i).answer codes (.so k ⟨0, speed, d⟩) =
      some (.ok (render (soPattern i.t i.ch 0 i.out (speedNibble speed))), .so { i with t := flipBit i.t }) :=
  rfl

/-- A legal EXT record is one command on every EXT view: the frame carries T and A, T flips, and A for selector 4 (R107). -/
theorem answer_ext_of_legal (codes : ExtCode) (k : Nat) {x : BitVec 3} (legal : x.toNat ≤ 5) :
    ∃ c, ∀ i : ExtInstance, (InstanceView.ext i).answer codes (.ext k ⟨x⟩) =
      some (.ok (render (extPattern i.t 0 i.ch i.a 0 (codes.code c))),
        .ext { i with t := flipBit i.t, a := if x = 4 then flipBit i.a else i.a }) := by
  obtain ⟨named, toggles⟩ := ofSelector_spec x
  obtain ⟨c, selected⟩ := Option.isSome_iff_exists.mp (named.mpr legal)
  rw [selected, Option.some.injEq] at toggles
  exact ⟨c, fun i => by simp only [InstanceView.answer, selected, toggles]⟩

@[simp] theorem put_pending (s : State) (p : Port) (v : InstanceView) : (s.put p v).pending = s.pending := by
  unfold State.put; split <;> rfl

@[simp] theorem put_sends (s : State) (p : Port) (v : InstanceView) : (s.put p v).sends = s.sends := by
  unfold State.put; split <;> rfl

@[simp] theorem answered_pending (s : State) (r : Request) (res : Result) (w : InstanceView) :
    (s.answered r res w).pending = s.pending :=
  put_pending ..

@[simp] theorem answered_sends (s : State) (r : Request) (res : Result) (w : InstanceView) :
    (s.answered r res w).sends = s.sends :=
  put_sends ..

/-- Settles O32: the step is the answer of the view at the interface. -/
theorem everyCommandIsAnsweredOnce : Obligations.EveryCommandIsAnsweredOnce := by
  intro s r rest pending present
  obtain ⟨v, viewed⟩ := view_of_has present
  obtain ⟨res, w, answered, stepped⟩ := step_command pending viewed
  refine ⟨_, res, stepped, answered_pending .., answered_responses .., ?_⟩
  obtain ⟨legal, f, rfl⟩ | ⟨illegal, rfl⟩ := result_answer answered
  · exact ⟨fun _ => ⟨f, rfl, rfl, (length_beats _).trans (length_render f)⟩, fun h => Bool.noConfusion (legal.symm.trans h)⟩
  · exact ⟨fun h => Bool.noConfusion (illegal.symm.trans h), fun _ => ⟨rfl, rfl, rfl⟩⟩

/-! ## Interfaces determine the banks -/

/-- Two states with the same view at every interface have the same banks. -/
theorem banks_of_views {s t : State} (h : ∀ p, t.view p = s.view p) :
    t.so = s.so ∧ t.cpwm = s.cpwm ∧ t.cdir = s.cdir ∧ t.ext = s.ext :=
  ⟨List.ext_getElem? fun k => Option.map_injective (fun _ _ => InstanceView.so.inj) (h (.so k)),
    List.ext_getElem? fun k => Option.map_injective (fun _ _ => InstanceView.cpwm.inj) (h (.cpwm k)),
    List.ext_getElem? fun k => Option.map_injective (fun _ _ => InstanceView.cdir.inj) (h (.cdir k)),
    List.ext_getElem? fun k => Option.map_injective (fun _ _ => InstanceView.ext.inj) (h (.ext k))⟩

/-- The view at every interface after one is written. -/
theorem view_put {s : State} {p : Port} {v w : InstanceView} (viewed : s.view p = some v) (config : w.config = v.config)
    (q : Port) : (s.put p w).view q = if q = p then some w else s.view q := by
  split
  case isTrue same => subst same; exact view_put_self viewed config
  case isFalse other => exact view_put_of_ne w (Ne.symm other)

@[simp] theorem responsesOf_with_pending (p : Port) (s : State) (rest : List HostEvent) :
    ({ s with pending := rest } : State).responsesOf p = s.responsesOf p :=
  rfl

/-- The responses on every interface after one more was delivered. -/
theorem responsesOf_of_responses {s t : State} {p : Port} {res : Result} (h : t.responses = s.responses ++ [⟨p, res⟩])
    (q : Port) : t.responsesOf q = s.responsesOf q ++ if q = p then [⟨q, res⟩] else [] := by
  rw [State.responsesOf, h, List.filter_append]
  split
  case isTrue same => subst same; simp [State.responsesOf]
  case isFalse other => simp [State.responsesOf, Ne.symm other]

/-! ## Runs of two and three actions -/

theorem run_two_of_steps {s t u : State} (first : step s = .next t) (second : step t = .next u) :
    core.run 2 s = .next u :=
  (run_succ_of_step first).trans (run_succ_of_step second)

theorem run_three_of_steps {s t u v : State} (first : step s = .next t) (second : step t = .next u)
    (third : step u = .next v) : core.run 3 s = .next v :=
  (run_succ_of_step first).trans (run_two_of_steps second third)

/-- A step on a command whose answer is known: everything a later step can read of it. -/
theorem step_of_answer {s : State} {r : Request} {rest : List HostEvent} {v w : InstanceView} {res : Result}
    (pending : s.pending = .command r :: rest) (viewed : s.view (requestPort r) = some v)
    (answered : v.answer s.codes r = some (res, w)) :
    ∃ t, step s = .next t ∧ t.codes = s.codes ∧ t.pending = rest ∧ t.sends = s.sends ∧
      t.responses = s.responses ++ [⟨requestPort r, res⟩] ∧
      ∀ q, t.view q = if q = requestPort r then some w else s.view q := by
  obtain ⟨res', w', answered', stepped⟩ := step_command pending viewed
  cases answered'.symm.trans answered
  refine ⟨_, stepped, answered_codes .., answered_pending .., answered_sends .., answered_responses .., fun q => ?_⟩
  split
  case isTrue same => subst same; exact view_answered_self viewed (config_answer answered)
  case isFalse other => exact (view_answered_of_ne res w other).trans (view_with_pending ..)

/-- Two commands at different interfaces both run, and each interface holds what its own command left and answered (R16, R43). -/
theorem run_two_commands {s : State} {q r : Request} {rest : List HostEvent} {v v' w w' : InstanceView}
    {res res' : Result} (distinct : requestPort q ≠ requestPort r)
    (pending : s.pending = .command q :: .command r :: rest)
    (viewed : s.view (requestPort q) = some v) (answered : v.answer s.codes q = some (res, w))
    (viewed' : s.view (requestPort r) = some v') (answered' : v'.answer s.codes r = some (res', w')) :
    ∃ t, core.run 2 s = .next t ∧ t.pending = rest ∧
      (∀ p, t.view p = if p = requestPort r then some w' else if p = requestPort q then some w else s.view p) ∧
      (∀ p, t.responsesOf p = s.responsesOf p ++ (if p = requestPort q then [⟨p, res⟩] else []) ++
        if p = requestPort r then [⟨p, res'⟩] else []) := by
  obtain ⟨u, first, codes, pending₁, -, responses₁, view₁⟩ := step_of_answer pending viewed answered
  have untouched : u.view (requestPort r) = some v' := (view₁ _).trans ((if_neg distinct.symm).trans viewed')
  obtain ⟨t, second, -, pending₂, -, responses₂, view₂⟩ := step_of_answer pending₁ untouched (codes ▸ answered')
  refine ⟨t, run_two_of_steps first second, pending₂, fun p => ?_, fun p => ?_⟩
  · rw [view₂, view₁]
  · rw [responsesOf_of_responses responses₂, responsesOf_of_responses responses₁]

/-- Settles O49: after either order every interface holds what its own command left and answered. -/
theorem distinctInstancesCommute : Obligations.DistinctInstancesCommute := by
  intro s q r rest distinct presentQ presentR
  obtain ⟨v, viewed⟩ := view_of_has presentQ
  obtain ⟨v', viewed'⟩ := view_of_has presentR
  obtain ⟨res, w, answered, -⟩ := acceptCommand_eq viewed
  obtain ⟨res', w', answered', -⟩ := acceptCommand_eq viewed'
  obtain ⟨t, ran, pending, views, responses⟩ :=
    run_two_commands (s := { s with pending := .command q :: .command r :: rest }) distinct rfl
      ((view_with_pending ..).trans viewed) answered ((view_with_pending ..).trans viewed') answered'
  obtain ⟨t', ran', pending', views', responses'⟩ :=
    run_two_commands (s := { s with pending := .command r :: .command q :: rest }) distinct.symm rfl
      ((view_with_pending ..).trans viewed') answered' ((view_with_pending ..).trans viewed) answered
  simp only [view_with_pending, responsesOf_with_pending] at views views' responses responses'
  have notBoth (p : Port) (h : p = requestPort r) : p ≠ requestPort q := h ▸ distinct.symm
  obtain ⟨so, cpwm, cdir, ext⟩ := banks_of_views fun p =>
    ((views p).trans (ite_ite_comm _ _ _ _ (notBoth p))).trans (views' p).symm
  refine ⟨t, t', ran, ran', so, cpwm, cdir, ext, pending.trans pending'.symm, fun p => ?_⟩
  rw [responses, responses']
  by_cases h : p = requestPort r
  · simp only [h, if_neg distinct.symm, List.append_nil]
  · simp only [if_neg h, List.append_nil]

/-! ## A send between two presentations of one command -/

/-- A command, a send of any outcome and the same command again: the send leaves what the first one left, and the second one
starts from there (R47, R124, R145). Here its answer leads back to the first view. -/
theorem run_command_send_command {s : State} {r : Request} {v w : InstanceView} {res res' : Result} {p : PulseSeq}
    {o : SendOutcome} {rest : List HostEvent} (pending : s.pending = .command r :: .send p o :: .command r :: rest)
    (viewed : s.view (requestPort r) = some v) (answered : v.answer s.codes r = some (res, w))
    (again : w.answer s.codes r = some (res', v)) :
    ∃ u t, core.run 2 s = .next u ∧ core.run 3 s = .next t ∧ (∀ q, u.view q = (s.put (requestPort r) w).view q) ∧
      u.sends = s.sends ++ [⟨p, o⟩] ∧ t.pending = rest ∧ (∀ q, t.view q = s.view q) ∧
      t.responses = s.responses ++ [⟨requestPort r, res⟩, ⟨requestPort r, res'⟩] := by
  obtain ⟨u, first, codes, pending₁, sends, responses₁, view₁⟩ := step_of_answer pending viewed answered
  have second : step u = .next (recordSend p o { u with pending := .command r :: rest }) := step_of_pending pending₁
  have left : (recordSend p o { u with pending := .command r :: rest }).view (requestPort r) = some w :=
    (view_recordSend ..).trans ((view_with_pending ..).trans ((view₁ _).trans (if_pos rfl)))
  obtain ⟨t, third, -, pending₃, -, responses₃, view₃⟩ := step_of_answer rfl left (codes.symm ▸ again)
  refine ⟨_, t, run_two_of_steps first second, run_three_of_steps first second third, fun q => ?_,
    congrArg (· ++ _) sends, pending₃, fun q => ?_, ?_⟩
  · rw [view_recordSend, view_with_pending, view₁, view_put viewed (config_answer answered)]
  · rw [view₃, view_recordSend, view_with_pending, view₁]
    by_cases h : q = requestPort r
    · rw [if_pos h, h, viewed]
    · rw [if_neg h, if_neg h]
  · rw [responses₃, recordSend_responses, responses₁, List.append_assoc]
    rfl

/-- R145 for SO.PWM. -/
theorem soPwm_send_soPwm {s : State} {k : Nat} {i : SoInstance} (speed : Speed) (d : Nibble) {p : PulseSeq}
    {o : SendOutcome} {rest : List HostEvent} (found : s.so[k]? = some i)
    (pending : s.pending = .command (.so k ⟨0, speed, d⟩) :: .send p o :: .command (.so k ⟨0, speed, d⟩) :: rest) :
    ∃ (u t : State) (f g : Frame), core.run 2 s = .next u ∧ core.run 3 s = .next t ∧
      u.so = s.so.set k { i with t := 1 - i.t } ∧ u.sends = s.sends ++ [⟨p, o⟩] ∧
      t.pending = rest ∧ t.so = s.so ∧
      t.responses = s.responses ++ [⟨.so k, .ok (render f)⟩, ⟨.so k, .ok (render g)⟩] ∧ f ^^^ g = 0x8008 ∧
      f.getLsbD 15 = decide (i.t = 1) := by
  have viewed : s.view (.so k) = some (.so i) := congrArg (Option.map _) found
  have again := answer_soPwm s.codes k { i with t := flipBit i.t } speed d
  rw [flipBit_flipBit] at again
  obtain ⟨u, t, ran₂, ran₃, views, sends, emptied, restored, responses⟩ :=
    run_command_send_command pending viewed (answer_soPwm ..) again
  obtain ⟨flipped, -, -, -⟩ := banks_of_views views
  obtain ⟨unchanged, -, -, -⟩ := banks_of_views restored
  exact ⟨u, t, _, _, ran₂, ran₃, flipped, sends, emptied, unchanged, responses,
    soPattern_xor_flipBit .., soPattern_getLsbD_fifteen ..⟩

/-- R145 for the six EXT operations. -/
theorem ext_send_ext {s : State} {k : Nat} {i : ExtInstance} {x : BitVec 3} {p : PulseSeq} {o : SendOutcome}
    {rest : List HostEvent} (found : s.ext[k]? = some i) (legal : x.toNat ≤ 5)
    (pending : s.pending = .command (.ext k ⟨x⟩) :: .send p o :: .command (.ext k ⟨x⟩) :: rest) :
    ∃ (u t : State) (f g : Frame), core.run 2 s = .next u ∧ core.run 3 s = .next t ∧
      u.ext = s.ext.set k { i with t := 1 - i.t, a := if x = 4 then 1 - i.a else i.a } ∧
      u.sends = s.sends ++ [⟨p, o⟩] ∧ t.pending = rest ∧ t.ext = s.ext ∧
      t.responses = s.responses ++ [⟨.ext k, .ok (render f)⟩, ⟨.ext k, .ok (render g)⟩] ∧
      f ^^^ g = (if x = 4 then 0x8800 else 0x8008) ∧
      f.getLsbD 15 = decide (i.t = 1) ∧ f.getLsbD 11 = decide (i.a = 1) := by
  have viewed : s.view (.ext k) = some (.ext i) := congrArg (Option.map _) found
  obtain ⟨c, answered⟩ := answer_ext_of_legal s.codes k legal
  have again := answered { i with t := flipBit i.t, a := if x = 4 then flipBit i.a else i.a }
  have back : (if x = 4 then flipBit (if x = 4 then flipBit i.a else i.a)
      else if x = 4 then flipBit i.a else i.a) = i.a := by
    split <;> simp only [flipBit_flipBit]
  rw [flipBit_flipBit, back] at again
  obtain ⟨u, t, ran₂, ran₃, views, sends, emptied, restored, responses⟩ :=
    run_command_send_command pending viewed (answered i) again
  obtain ⟨-, -, -, flipped⟩ := banks_of_views views
  obtain ⟨-, -, -, unchanged⟩ := banks_of_views restored
  refine ⟨u, t, _, _, ran₂, ran₃, flipped, sends, emptied, unchanged, responses, ?_,
    extPattern_getLsbD_fifteen .., extPattern_getLsbD_eleven ..⟩
  split
  · exact extPattern_xor_flipBit_flipBit ..
  · exact extPattern_xor_flipBit ..

/-- Settles O42: a command, a send and the same command again, for SO.PWM and for EXT. -/
theorem toggleAdvancesDespiteFailedSend : Obligations.ToggleAdvancesDespiteFailedSend :=
  ⟨fun _ _ _ speed d _ _ _ found pending => soPwm_send_soPwm speed d found pending,
    fun _ _ _ _ _ _ _ found legal pending => ext_send_ext found legal pending⟩

end Sys2Proof.Machine
end

section
/-! PROOFS. A frame as the fields of format X with any last nibble (30_encoding.md R51, R53): the other two formats are cuts of the
same bits, and the field reader is one decision over them. -/

namespace Sys2Proof.Machine

/-- The bits of format X, `TECC aMMM FFFF`, above any last nibble (R51). -/
def frameOf (t e : Bit) (c : ChannelField) (a : Bit) (m : BitVec 3) (n l : Nibble) : Frame :=
  t ++ e ++ c ++ a ++ m ++ n ++ l

/-! ## Reading the fields -/

section
variable (t e : Bit) (c : ChannelField) (a : Bit) (m : BitVec 3) (n l : Nibble)

/-- Bits above the last two nibbles are bits of the first eight. -/
theorem frameOf_extractLsb'_add_eight (k len : Nat) :
    (frameOf t e c a m n l).extractLsb' (k + 8) len = (t ++ e ++ c ++ a ++ m).extractLsb' k len :=
  (BitVec.extractLsb'_append_eq_of_le (by omega)).trans (BitVec.extractLsb'_append_eq_of_le (by omega))

theorem frameOf_toggle : (frameOf t e c a m n l).extractLsb' 15 1 = t := by
  refine (frameOf_extractLsb'_add_eight t e c a m n l 7 1).trans ?_
  simp only [BitVec.extractLsb'_append_eq_of_le, Nat.reduceLeDiff, Nat.reduceSub]
  exact BitVec.extractLsb'_eq_self

theorem frameOf_escape : (frameOf t e c a m n l).extractLsb' 14 1 = e := by
  refine (frameOf_extractLsb'_add_eight t e c a m n l 6 1).trans ?_
  simp only [BitVec.extractLsb'_append_eq_of_le, Nat.reduceLeDiff, Nat.reduceSub, BitVec.extractLsb'_append_eq_right]

theorem frameOf_channel : (frameOf t e c a m n l).extractLsb' 12 2 = c := by
  refine (frameOf_extractLsb'_add_eight t e c a m n l 4 2).trans ?_
  simp only [BitVec.extractLsb'_append_eq_of_le, Nat.reduceLeDiff, Nat.reduceSub, BitVec.extractLsb'_append_eq_right]

theorem frameOf_address : (frameOf t e c a m n l).extractLsb' 11 1 = a := by
  refine (frameOf_extractLsb'_add_eight t e c a m n l 3 1).trans ?_
  simp only [BitVec.extractLsb'_append_eq_of_le, Nat.reduceLeDiff, Nat.reduceSub, BitVec.extractLsb'_append_eq_right]

theorem frameOf_output : (frameOf t e c a m n l).extractLsb' 8 1 = m.extractLsb' 0 1 :=
  (frameOf_extractLsb'_add_eight t e c a m n l 0 1).trans (BitVec.extractLsb'_append_eq_of_add_le (by decide))

theorem frameOf_mode : (frameOf t e c a m n l).extractLsb' 8 3 = m :=
  (frameOf_extractLsb'_add_eight t e c a m n l 0 3).trans BitVec.extractLsb'_append_eq_right

theorem frameOf_nibble_one : (frameOf t e c a m n l).extractLsb' 12 4 = t ++ e ++ c := by
  refine (frameOf_extractLsb'_add_eight t e c a m n l 4 4).trans ?_
  simp only [BitVec.extractLsb'_append_eq_of_le, Nat.reduceLeDiff, Nat.reduceSub]
  exact BitVec.extractLsb'_eq_self

theorem frameOf_nibble_two : (frameOf t e c a m n l).extractLsb' 8 4 = a ++ m := by
  refine (frameOf_extractLsb'_add_eight t e c a m n l 0 4).trans ?_
  revert t e c a m; decide

theorem frameOf_extractLsb'_four {len : Nat} (h : len ≤ 4) :
    (frameOf t e c a m n l).extractLsb' 4 len = n.extractLsb' 0 len :=
  (BitVec.extractLsb'_append_eq_of_le (by decide)).trans (BitVec.extractLsb'_append_eq_of_add_le (by omega))

theorem frameOf_extractLsb'_six : (frameOf t e c a m n l).extractLsb' 6 2 = n.extractLsb' 2 2 :=
  (BitVec.extractLsb'_append_eq_of_le (by decide)).trans (BitVec.extractLsb'_append_eq_of_add_le (by decide))

theorem frameOf_nibble_three : (frameOf t e c a m n l).extractLsb' 4 4 = n :=
  (frameOf_extractLsb'_four t e c a m n l (by decide)).trans BitVec.extractLsb'_eq_self

theorem frameOf_nibble_four : (frameOf t e c a m n l).extractLsb' 0 4 = l :=
  BitVec.extractLsb'_append_eq_right


theorem frameOf_getLsbD_fifteen : (frameOf t e c a m n l).getLsbD 15 = decide (t = 1) := by
  simp only [frameOf, BitVec.getLsbD_append]
  exact getLsbD_zero_eq t

theorem frameOf_getLsbD_fourteen : (frameOf t e c a m n l).getLsbD 14 = decide (e = 1) := by
  simp only [frameOf, BitVec.getLsbD_append]
  exact getLsbD_zero_eq e

theorem frameOf_getLsbD_eleven : (frameOf t e c a m n l).getLsbD 11 = decide (a = 1) := by
  simp only [frameOf, BitVec.getLsbD_append]
  exact getLsbD_zero_eq a

theorem frameOf_getLsbD_ten : (frameOf t e c a m n l).getLsbD 10 = m.getLsbD 2 := by
  simp only [frameOf, BitVec.getLsbD_append]
  rfl

theorem frameOf_getLsbD_nine : (frameOf t e c a m n l).getLsbD 9 = m.getLsbD 1 := by
  simp only [frameOf, BitVec.getLsbD_append]
  rfl

theorem frameOf_getLsbD_eight : (frameOf t e c a m n l).getLsbD 8 = m.getLsbD 0 := by
  simp only [frameOf, BitVec.getLsbD_append]
  rfl

/-- The field reader, decided by E, M and the register bits, with the LRC nibble not read (R53, R62 to R64). -/
theorem frameFields_frameOf (codes : ExtCode) :
    frameFields codes (frameOf t e c a m n l) =
      if e = 1 then
        if t = 0 then .ok ⟨.cpwm c, 0, 0, .cpwm (speedOfNibble n) (speedOfNibble (a ++ m))⟩ else .error .fixedBit
      else if m.getLsbD 2 then
        if a = 0 then
          .ok ⟨.so c (m.extractLsb' 0 1), t, 0, if m.getLsbD 1 then .soDisc n else .soPwm (speedOfNibble n)⟩
        else .error .fixedBit
      else if m.getLsbD 1 then .error .unusedMode
      else if m.getLsbD 0 then
        if t = 0 ∧ a = 0 then
          .ok ⟨.cdir c, 0, 0,
            .cdir (DirectState.ofCode (n.extractLsb' 0 2)) (DirectState.ofCode (n.extractLsb' 2 2))⟩
        else .error .fixedBit
      else (codes.commandOf n).elim (.error .reservedFunction) fun x => .ok ⟨.ext c, t, a, x.instr⟩ := by
  simp only [frameFields, frameOf_toggle, frameOf_channel, frameOf_address, frameOf_output, frameOf_nibble_two,
    frameOf_nibble_three, frameOf_extractLsb'_four t e c a m n l (len := 2) (by decide), frameOf_extractLsb'_six,
    frameOf_getLsbD_fourteen, frameOf_getLsbD_ten, frameOf_getLsbD_nine, frameOf_getLsbD_eight, decide_eq_true_eq]
  cases codes.commandOf n <;> split_ifs <;> rfl

end

/-- A bit string is cut at any place. -/
theorem exists_append {v w : Nat} (x : BitVec (v + w)) : ∃ (y : BitVec v) (z : BitVec w), x = y ++ z :=
  ⟨x.extractLsb' w v, x.extractLsb' 0 w, BitVec.extractLsb'_append_extractLsb'.symm⟩

/-- Every 16-bit value is one of these, cut field by field from the right. -/
theorem exists_frameOf (f : Frame) : ∃ t e c a m n l, f = frameOf t e c a m n l := by
  obtain ⟨f, l, rfl⟩ := exists_append (v := 12) (w := 4) f
  obtain ⟨f, n, rfl⟩ := exists_append (v := 8) (w := 4) f
  obtain ⟨f, m, rfl⟩ := exists_append (v := 5) (w := 3) f
  obtain ⟨f, a, rfl⟩ := exists_append (v := 4) (w := 1) f
  obtain ⟨f, c, rfl⟩ := exists_append (v := 2) (w := 2) f
  obtain ⟨t, e, rfl⟩ := exists_append (v := 1) (w := 1) f
  exact ⟨t, e, c, a, m, n, l, rfl⟩

/-! ## The LRC -/

/-- Format X is these bits with their checksum (R51, R78). -/
theorem extPattern_eq_frameOf (t e : Bit) (c : ChannelField) (a : Bit) (m : BitVec 3) (n : Nibble) :
    extPattern t e c a m n = frameOf t e c a m n (extChecksum t e c a m n) :=
  rfl

theorem xor_eq_iff_eq_xor (k x l : Nibble) : x ^^^ l = k ↔ l = k ^^^ x := by
  rw [← BitVec.xor_right_inj x, ← BitVec.xor_assoc, BitVec.xor_self, BitVec.zero_xor, BitVec.xor_comm x k]

/-- The LRC check determines the last nibble: it is the checksum of format X, for a frame of any format (R79, R80). -/
theorem lrcHolds_frameOf (t e : Bit) (c : ChannelField) (a : Bit) (m : BitVec 3) (n l : Nibble) :
    lrcHolds (frameOf t e c a m n l) = true ↔ l = extChecksum t e c a m n := by
  have first : t.setWidth 4 * (8 : Nibble) + e.setWidth 4 * (4 : Nibble) + c.setWidth 4 = t ++ e ++ c := by
    revert t e c; decide
  have second : a.setWidth 4 * (8 : Nibble) + m.setWidth 4 = a ++ m := by
    clear first; revert a m; decide
  rw [lrcHolds, decide_eq_true_eq, frameOf_nibble_one, frameOf_nibble_two, frameOf_nibble_three, frameOf_nibble_four,
    xor_eq_iff_eq_xor, extChecksum, first, second]

/-- Every frame whose nibbles xor to 0xF has the bits of format X (R80). -/
theorem exists_extPattern_of_lrcHolds {f : Frame} (h : lrcHolds f = true) :
    ∃ t e c a m n, f = extPattern t e c a m n := by
  obtain ⟨t, e, c, a, m, n, l, rfl⟩ := exists_frameOf f
  obtain rfl := (lrcHolds_frameOf ..).mp h
  exact ⟨t, e, c, a, m, n, rfl⟩

/-- The frame decoder on a frame with its checksum is the field reader (R53, R80). -/
theorem decodeFrame_extPattern (codes : ExtCode) (t e : Bit) (c : ChannelField) (a : Bit) (m : BitVec 3) (n : Nibble) :
    decodeFrame codes (extPattern t e c a m n) =
      frameFields codes (frameOf t e c a m n (extChecksum t e c a m n)) :=
  if_pos ((lrcHolds_frameOf ..).mpr rfl)

/-- What the field reader answers does not depend on the last nibble (R53, log entry 7). -/
theorem frameFields_eq_decodeFrame (codes : ExtCode) (t e : Bit) (c : ChannelField) (a : Bit) (m : BitVec 3)
    (n l : Nibble) : frameFields codes (frameOf t e c a m n l) = decodeFrame codes (extPattern t e c a m n) := by
  rw [decodeFrame_extPattern, frameFields_frameOf, frameFields_frameOf]

/-! ## The other two formats -/

/-- Format SO is format X with E = 0, a = 0 and mode bits `1MO` (R49, R79). -/
theorem soPattern_eq_extPattern (t : Bit) (c : ChannelField) (m o : Bit) (d : Nibble) :
    soPattern t c m o d = extPattern t 0 c 0 ((1 : Bit) ++ m ++ o) d := by
  have upper : t ++ (0 : Bit) ++ c ++ (0 : Bit) ++ (1 : Bit) ++ m ++ o =
      t ++ (0 : Bit) ++ c ++ (0 : Bit) ++ ((1 : Bit) ++ m ++ o) := by
    revert t c m o; decide
  have first : t.setWidth 4 * (8 : Nibble) + c.setWidth 4 =
      t.setWidth 4 * (8 : Nibble) + (0 : Bit).setWidth 4 * (4 : Nibble) + c.setWidth 4 := by
    clear upper; revert t c; decide
  have second : ((0 : Bit).setWidth 4 <<< 3) ||| ((1 : Nibble) <<< 2) ||| (m.setWidth 4 <<< 1) ||| o.setWidth 4 =
      (0 : Bit).setWidth 4 * (8 : Nibble) + ((1 : Bit) ++ m ++ o).setWidth 4 := by
    clear upper first; revert m o; decide
  rw [soPattern, upper, soChecksum, first, second, extPattern, extChecksum]

/-- Format CPWM is format X with T = 0, E = 1 and the first data nibble in place of `aMMM` (R50, R79). -/
theorem cpwmPattern_eq_extPattern (c : ChannelField) (a : Bit) (m : BitVec 3) (r : Nibble) :
    cpwmPattern c (a ++ m) r = extPattern 0 1 c a m r := by
  have upper : (0 : Bit) ++ (1 : Bit) ++ c ++ (a ++ m) = (0 : Bit) ++ (1 : Bit) ++ c ++ a ++ m := by
    revert c a m; decide
  have first : ((0 : Bit).setWidth 4 <<< 3) ||| ((1 : Nibble) <<< 2) ||| c.setWidth 4 =
      (0 : Bit).setWidth 4 * (8 : Nibble) + (1 : Bit).setWidth 4 * (4 : Nibble) + c.setWidth 4 := by
    clear upper; revert c; decide
  have second : a ++ m = a.setWidth 4 * (8 : Nibble) + m.setWidth 4 := by
    clear upper first; revert a m; decide
  rw [cpwmPattern, upper, cpwmChecksum, first, second, extPattern, extChecksum]

end Sys2Proof.Machine
end

section
/-! PROOFS. A frame and its reading (30_encoding.md R49 to R54, R59, R60, R72): the code tables read backwards, the reading of each
format, and the two round trips. -/

namespace Sys2Proof.Machine

/-! ## Operands and code tables -/

/-- The speed read from a nibble is canonical and is written as that nibble again (R72). -/
theorem speedOfNibble_spec (n : Nibble) :
    Speed.canonical (speedOfNibble n) = true ∧ nibbleOfSpeed (speedOfNibble n) = n := by
  revert n; decide

/-- A canonical speed is the one read from its nibble (R72, R73). -/
theorem speedOfNibble_nibbleOfSpeed {s : Speed} (h : Speed.canonical s = true) :
    speedOfNibble (nibbleOfSpeed s) = s := by
  revert s; decide

theorem ofCode_code (d : DirectState) : DirectState.ofCode d.code = d := by
  cases d <;> rfl

theorem code_ofCode (c : BitVec 2) : (DirectState.ofCode c).code = c := by
  revert c; decide

/-- Two codes side by side, the first one high (R59). -/
theorem codes_append (b r : BitVec 2) : (b ++ r).extractLsb' 0 2 = r ∧ (b ++ r).extractLsb' 2 2 = b :=
  ⟨BitVec.extractLsb'_append_eq_right, BitVec.extractLsb'_append_eq_left⟩

/-- A command found for a function code has that code (R60, R63). -/
theorem code_of_commandOf {codes : ExtCode} {f : Nibble} {x : ExtCommand} (h : codes.commandOf f = some x) :
    codes.code x = f := by
  unfold ExtCode.commandOf at h
  split_ifs at h with h1 h2 h3 h4 h5 h6
  all_goals
    cases h
    exact Eq.symm ‹_›

/-- In an injective table every command is found by its code (R60). -/
theorem commandOf_code {codes : ExtCode} (h : codes.injective = true) (x : ExtCommand) :
    codes.commandOf (codes.code x) = some x := by
  have distinct : codes.toList.Nodup := of_decide_eq_true h
  simp only [ExtCode.toList, List.nodup_cons, List.mem_cons, List.not_mem_nil, or_false, not_or] at distinct
  obtain ⟨⟨_, _, _, _, _⟩, ⟨_, _, _, _⟩, ⟨_, _, _⟩, ⟨_, _⟩, _, _⟩ := distinct
  cases x <;> simp only [ExtCode.commandOf, ExtCode.code] <;> simp [*, Ne.symm, eq_comm]

/-! ## Reading the frame of each format -/

/-- `1MO`: the bits that tell an SO frame and its mode apart, and the output (R49). -/
theorem soMode_bits (m o : Bit) :
    ((1 : Bit) ++ m ++ o).getLsbD 2 = true ∧ ((1 : Bit) ++ m ++ o).getLsbD 1 = decide (m = 1) ∧
      ((1 : Bit) ++ m ++ o).extractLsb' 0 1 = o := by
  revert m o; decide

theorem decodeFrame_soPattern (codes : ExtCode) (t : Bit) (c : ChannelField) (m o : Bit) (d : Nibble) :
    decodeFrame codes (soPattern t c m o d) =
      .ok ⟨.so c o, t, 0, if m = 1 then .soDisc d else .soPwm (speedOfNibble d)⟩ := by
  obtain ⟨isSo, mode, output⟩ := soMode_bits m o
  rw [soPattern_eq_extPattern, decodeFrame_extPattern, frameFields_frameOf, if_neg (by decide), if_pos isSo, if_pos rfl,
    mode, output]
  simp only [decide_eq_true_eq]

theorem decodeFrame_cpwmPattern (codes : ExtCode) (c : ChannelField) (b r : Nibble) :
    decodeFrame codes (cpwmPattern c b r) = .ok ⟨.cpwm c, 0, 0, .cpwm (speedOfNibble r) (speedOfNibble b)⟩ := by
  obtain ⟨a, m, rfl⟩ := exists_append (v := 1) (w := 3) b
  simp [cpwmPattern_eq_extPattern, decodeFrame_extPattern, frameFields_frameOf]

theorem decodeFrame_cdirPattern (codes : ExtCode) (c : ChannelField) (b r : DirectState) :
    decodeFrame codes (extPattern 0 0 c 0 1 (b.code ++ r.code)) = .ok ⟨.cdir c, 0, 0, .cdir r b⟩ := by
  obtain ⟨low, high⟩ := codes_append b.code r.code
  simp [decodeFrame_extPattern, frameFields_frameOf, low, high, ofCode_code]

theorem decodeFrame_extPattern_zero {codes : ExtCode} {f : Nibble} {x : ExtCommand} (found : codes.commandOf f = some x)
    (t : Bit) (c : ChannelField) (a : Bit) :
    decodeFrame codes (extPattern t 0 c a 0 f) = .ok ⟨.ext c, t, a, x.instr⟩ := by
  simp [decodeFrame_extPattern, frameFields_frameOf, found]

/-! ## Well-formed readings -/

/-- The well-formed readings, protocol by protocol (R49 to R51, R62, R72). -/
inductive Reading : FrameView → Prop
  | soPwm (c : ChannelField) (o t : Bit) {s : Speed} (canonical : Speed.canonical s = true) :
      Reading ⟨.so c o, t, 0, .soPwm s⟩
  | soDisc (c : ChannelField) (o t : Bit) (d : Nibble) : Reading ⟨.so c o, t, 0, .soDisc d⟩
  | cpwm (c : ChannelField) {r b : Speed} (red : Speed.canonical r = true) (blue : Speed.canonical b = true) :
      Reading ⟨.cpwm c, 0, 0, .cpwm r b⟩
  | cdir (c : ChannelField) (r b : DirectState) : Reading ⟨.cdir c, 0, 0, .cdir r b⟩
  | ext (c : ChannelField) (t a : Bit) (x : ExtCommand) : Reading ⟨.ext c, t, a, x.instr⟩

theorem wf_iff (v : FrameView) : v.wf = true ↔
    v.op.proto = v.config.proto ∧ (v.toggle = 0 ∨ v.config.proto = .so ∨ v.config.proto = .ext) ∧
      (v.address = 0 ∨ v.config.proto = .ext) ∧ v.op.canonical = true := by
  simp only [FrameView.wf, FrameView.protoOk, FrameView.toggleOk, FrameView.addressOk, Bool.and_eq_true,
    Bool.or_eq_true, decide_eq_true_eq, and_assoc, or_assoc]

theorem wf_of_reading {v : FrameView} (h : Reading v) : v.wf = true := by
  cases h with
  | soPwm c o t canonical => exact (wf_iff _).mpr ⟨rfl, .inr (.inl rfl), .inl rfl, canonical⟩
  | soDisc c o t d => exact (wf_iff _).mpr ⟨rfl, .inr (.inl rfl), .inl rfl, rfl⟩
  | cpwm c red blue => exact (wf_iff _).mpr ⟨rfl, .inl rfl, .inl rfl, Bool.and_eq_true_iff.mpr ⟨red, blue⟩⟩
  | cdir c r b => exact (wf_iff _).mpr ⟨rfl, .inl rfl, .inl rfl, rfl⟩
  | ext c t a x => exact (wf_iff _).mpr ⟨by cases x <;> rfl, .inr (.inr rfl), .inr rfl, by cases x <;> rfl⟩

theorem reading_of_wf {v : FrameView} (h : v.wf = true) : Reading v := by
  obtain ⟨config, t, a, op⟩ := v
  obtain ⟨proto, toggle, address, canonical⟩ := (wf_iff _).mp h
  cases op <;> cases config <;> cases proto
  case soPwm.so s c o =>
    obtain rfl : a = 0 := address.resolve_right Proto.noConfusion
    exact .soPwm c o t canonical
  case soDisc.so d c o =>
    obtain rfl : a = 0 := address.resolve_right Proto.noConfusion
    exact .soDisc c o t d
  case cpwm.cpwm r b c =>
    obtain rfl : t = 0 := toggle.resolve_right (·.elim Proto.noConfusion Proto.noConfusion)
    obtain rfl : a = 0 := address.resolve_right Proto.noConfusion
    obtain ⟨red, blue⟩ := Bool.and_eq_true_iff.mp canonical
    exact .cpwm c red blue
  case cdir.cdir r b c =>
    obtain rfl : t = 0 := toggle.resolve_right (·.elim Proto.noConfusion Proto.noConfusion)
    obtain rfl : a = 0 := address.resolve_right Proto.noConfusion
    exact .cdir c r b
  case extBrk.ext c => exact .ext c t a .brakeThenFloat
  case extInc.ext c => exact .ext c t a .incrementSpeed
  case extDec.ext c => exact .ext c t a .decrementSpeed
  case extTgf.ext c => exact .ext c t a .toggleForwardOrFloat
  case extTga.ext c => exact .ext c t a .toggleAddress
  case extAln.ext c => exact .ext c t a .alignToggle

/-! ## The round trips -/

theorem encodeFrame_soPwm (codes : ExtCode) (c : ChannelField) (o t : Bit) (s : Speed) :
    encodeFrame codes ⟨.so c o, t, 0, .soPwm s⟩ = soPattern t c 0 o (nibbleOfSpeed s) :=
  rfl

theorem encodeFrame_soDisc (codes : ExtCode) (c : ChannelField) (o t : Bit) (d : Nibble) :
    encodeFrame codes ⟨.so c o, t, 0, .soDisc d⟩ = soPattern t c 1 o d :=
  rfl

theorem encodeFrame_cpwm (codes : ExtCode) (c : ChannelField) (r b : Speed) :
    encodeFrame codes ⟨.cpwm c, 0, 0, .cpwm r b⟩ = cpwmPattern c (nibbleOfSpeed b) (nibbleOfSpeed r) :=
  rfl

theorem encodeFrame_cdir (codes : ExtCode) (c : ChannelField) (r b : DirectState) :
    encodeFrame codes ⟨.cdir c, 0, 0, .cdir r b⟩ = extPattern 0 0 c 0 1 (b.code ++ r.code) :=
  rfl

/-- The six extended operations are written by one pattern (R51). -/
theorem encodeFrame_ext (codes : ExtCode) (c : ChannelField) (t a : Bit) (x : ExtCommand) :
    encodeFrame codes ⟨.ext c, t, a, x.instr⟩ = extPattern t 0 c a 0 (codes.code x) := by
  cases x <;> rfl

/-- Settles O13: each well-formed reading is written in its own format, and the decoder reads the format back. -/
theorem frameDecodesToItsReading : Obligations.FrameDecodesToItsReading := by
  intro codes v injective wf
  cases reading_of_wf wf with
  | @soPwm c o t s canonical =>
    rw [encodeFrame_soPwm, decodeFrame_soPattern, speedOfNibble_nibbleOfSpeed canonical]
    rfl
  | soDisc c o t d => exact decodeFrame_soPattern codes t c 1 o d
  | @cpwm c r b red blue =>
    rw [encodeFrame_cpwm, decodeFrame_cpwmPattern, speedOfNibble_nibbleOfSpeed red, speedOfNibble_nibbleOfSpeed blue]
  | cdir c r b => exact decodeFrame_cdirPattern codes c b r
  | ext c t a x => rw [encodeFrame_ext, decodeFrame_extPattern_zero (commandOf_code injective x)]

theorem bit_cases (b : Bit) : b = 0 ∨ b = 1 := by
  revert b; decide

/-- The mode bits of an SO frame are `1MO` (R49). -/
theorem soMode_of_bits {m : BitVec 3} (mode : Bit) (isSo : m.getLsbD 2 = true)
    (hm : m.getLsbD 1 = decide (mode = 1)) : (1 : Bit) ++ mode ++ m.extractLsb' 0 1 = m := by
  revert m mode; decide

/-- The mode bits of an EXT or CDIR frame are `00M`. -/
theorem extMode_of_bits {m : BitVec 3} (mode : Bit) (notSo : ¬m.getLsbD 2 = true) (used : ¬m.getLsbD 1 = true)
    (hm : m.getLsbD 0 = decide (mode = 1)) : m = mode.setWidth 3 := by
  revert m mode; decide

/-- A value that decodes is the frame of the reading it decodes to (R53, R63, R64). -/
theorem encodeFrame_of_decodeFrame {codes : ExtCode} {t e : Bit} {c : ChannelField} {a : Bit} {m : BitVec 3} {n : Nibble}
    {v : FrameView} (h : decodeFrame codes (extPattern t e c a m n) = .ok v) :
    Reading v ∧ encodeFrame codes v = extPattern t e c a m n := by
  rw [decodeFrame_extPattern, frameFields_frameOf] at h
  obtain rfl | rfl := bit_cases e
  case inr =>
    rw [if_pos rfl] at h
    split_ifs at h with noToggle
    cases h
    obtain ⟨⟨red, redBack⟩, blue, blueBack⟩ := And.intro (speedOfNibble_spec n) (speedOfNibble_spec (a ++ m))
    refine ⟨.cpwm c red blue, ?_⟩
    rw [noToggle, ← cpwmPattern_eq_extPattern, encodeFrame_cpwm, redBack, blueBack]
  rw [if_neg (by decide)] at h
  split_ifs at h with isSo noAddress discrete unused direct noRegisters
  · cases h
    refine ⟨.soDisc .., ?_⟩
    rw [encodeFrame_soDisc, soPattern_eq_extPattern, soMode_of_bits 1 isSo discrete, noAddress]
  · cases h
    obtain ⟨canonical, back⟩ := speedOfNibble_spec n
    refine ⟨.soPwm _ _ _ canonical, ?_⟩
    rw [encodeFrame_soPwm, back, soPattern_eq_extPattern, soMode_of_bits 0 isSo (eq_false_of_ne_true discrete), noAddress]
  · cases h
    obtain ⟨noToggle, noAddress⟩ := noRegisters
    obtain ⟨b, r, rfl⟩ := exists_append (v := 2) (w := 2) n
    obtain ⟨low, high⟩ := codes_append b r
    refine ⟨.cdir .., ?_⟩
    rw [low, high, encodeFrame_cdir, code_ofCode, code_ofCode, extMode_of_bits 1 isSo unused direct, noToggle, noAddress]
    rfl
  · obtain ⟨x, found⟩ | none := (codes.commandOf n).eq_none_or_eq_some.symm
    · rw [found] at h
      cases h
      refine ⟨.ext c t a x, ?_⟩
      rw [encodeFrame_ext, code_of_commandOf found, extMode_of_bits 0 isSo unused (eq_false_of_ne_true direct)]
      rfl
    · rw [none] at h
      cases h

/-- The field reader answers well-formed readings only, whatever the last nibble. -/
theorem reading_of_frameFields {codes : ExtCode} {f : Frame} {v : FrameView} (h : frameFields codes f = .ok v) :
    Reading v := by
  obtain ⟨t, e, c, a, m, n, l, rfl⟩ := exists_frameOf f
  exact (encodeFrame_of_decodeFrame ((frameFields_eq_decodeFrame ..).symm.trans h)).1

/-- Settles O14: the LRC check leaves the frames of format X's bits, and those that decode are their readings' frames. -/
theorem acceptedFrameIsItsEncoding : Obligations.AcceptedFrameIsItsEncoding := by
  intro codes f v h
  have lrc : lrcHolds f = true := by
    by_contra bad
    cases (if_neg bad).symm.trans h
  obtain ⟨t, e, c, a, m, n, rfl⟩ := exists_extPattern_of_lrcHolds lrc
  obtain ⟨reading, encoded⟩ := encodeFrame_of_decodeFrame h
  exact ⟨encoded, wf_of_reading reading⟩

/-- Settles O17: each word is the frame of the reading it stands for. -/
theorem writtenOutFramesDecode : Obligations.WrittenOutFramesDecode := by
  have read {f : Frame} {v : FrameView} (wf : v.wf = true) (written : encodeFrame ExtCode.standard v = f) :
      decodeFrame ExtCode.standard f = .ok v :=
    written ▸ frameDecodesToItsReading ExtCode.standard v (by decide) wf
  exact ⟨read (by decide) (by decide), read (by decide) (by decide), read (by decide) (by decide),
    read (by decide) (by decide), read (by decide) (by decide)⟩

end Sys2Proof.Machine
end

section
/-! PROOFS. The opcode table (30_encoding.md section 5, R66; log entry 7): which frames a row's mask and match select, and which
operation the decoder reads from them. -/

namespace Sys2Proof.Machine

/-! ## Masks and matches by fields -/

/-- The fields are determined by the frame. -/
theorem frameOf_inj {t t' e e' : Bit} {c c' : ChannelField} {a a' : Bit} {m m' : BitVec 3} {n n' l l' : Nibble}
    (h : frameOf t e c a m n l = frameOf t' e' c' a' m' n' l') :
    t = t' ∧ e = e' ∧ c = c' ∧ a = a' ∧ m = m' ∧ n = n' ∧ l = l' := by
  have read (k len : Nat) := congrArg (BitVec.extractLsb' k len) h
  exact ⟨by simpa only [frameOf_toggle] using read 15 1, by simpa only [frameOf_escape] using read 14 1,
    by simpa only [frameOf_channel] using read 12 2, by simpa only [frameOf_address] using read 11 1,
    by simpa only [frameOf_mode] using read 8 3, by simpa only [frameOf_nibble_three] using read 4 4,
    by simpa only [frameOf_nibble_four] using read 0 4⟩

/-- A mask that leaves the channel and the LRC free, field by field. -/
theorem frameOf_and_eq_iff {t t' t'' e e' e'' : Bit} {c : ChannelField} {a a' a'' : Bit} {m m' m'' : BitVec 3}
    {n n' n'' l : Nibble} :
    frameOf t e c a m n l &&& frameOf t' e' 0 a' m' n' 0 = frameOf t'' e'' 0 a'' m'' n'' 0 ↔
      t &&& t' = t'' ∧ e &&& e' = e'' ∧ a &&& a' = a'' ∧ m &&& m' = m'' ∧ n &&& n' = n'' := by
  have masked : frameOf t e c a m n l &&& frameOf t' e' 0 a' m' n' 0 =
      frameOf (t &&& t') (e &&& e') 0 (a &&& a') (m &&& m') (n &&& n') 0 := by
    rw [frameOf, frameOf, BitVec.and_append]
    simp only [frameOf, BitVec.and_append, show c &&& 0 = 0 from BitVec.and_zero, show l &&& 0 = 0 from BitVec.and_zero]
  rw [masked]
  constructor
  · intro h
    obtain ⟨ht, he, -, ha, hm, hn, -⟩ := frameOf_inj h
    exact ⟨ht, he, ha, hm, hn⟩
  · rintro ⟨rfl, rfl, rfl, rfl, rfl⟩
    rfl

section
variable (t e : Bit) (c : ChannelField) (a : Bit) (m : BitVec 3) (n l : Nibble)

theorem soMask_iff (mode : Bit) :
    frameOf t e c a m n l &&& 0x4E00 = frameOf 0 0 0 0 ((1 : Bit) ++ mode ++ (0 : Bit)) 0 0 ↔
      e = 0 ∧ a = 0 ∧ ∃ o : Bit, m = (1 : Bit) ++ mode ++ o := by
  have modes : m &&& 6 = (1 : Bit) ++ mode ++ (0 : Bit) ↔ ∃ o : Bit, m = (1 : Bit) ++ mode ++ o := by
    revert m mode; decide
  rw [← modes]
  refine (frameOf_and_eq_iff (t' := 0#1) (e' := .allOnes 1) (a' := .allOnes 1) (m' := 6) (n' := 0#4) (t'' := 0#1)
    (n'' := 0#4)).trans ?_
  simp only [BitVec.and_allOnes, BitVec.and_zero, true_and, and_true]

theorem cpwmMask_iff : frameOf t e c a m n l &&& 0xC000 = 0x4000 ↔ t = 0 ∧ e = 1 := by
  refine (frameOf_and_eq_iff (t' := .allOnes 1) (e' := .allOnes 1) (a' := 0#1) (m' := 0#3) (n' := 0#4) (t'' := 0)
    (e'' := 1) (a'' := 0#1) (m'' := 0#3) (n'' := 0#4)).trans ?_
  simp only [BitVec.and_allOnes, BitVec.and_zero, and_true]

theorem cdirMask_iff : frameOf t e c a m n l &&& 0xCF00 = 0x0100 ↔ t = 0 ∧ e = 0 ∧ a = 0 ∧ m = 1 := by
  refine (frameOf_and_eq_iff (t' := .allOnes 1) (e' := .allOnes 1) (a' := .allOnes 1) (m' := .allOnes 3) (n' := 0#4)
    (t'' := 0) (e'' := 0) (a'' := 0) (m'' := 1) (n'' := 0#4)).trans ?_
  simp only [BitVec.and_allOnes, BitVec.and_zero, and_true]

theorem extMask_iff (f : Nibble) :
    frameOf t e c a m n l &&& 0x47F0 = frameOf 0 0 0 0 0 f 0 ↔ e = 0 ∧ m = 0 ∧ n = f := by
  refine (frameOf_and_eq_iff (t' := 0#1) (e' := .allOnes 1) (a' := 0#1) (m' := .allOnes 3) (n' := .allOnes 4) (t'' := 0#1)
    (a'' := 0#1)).trans ?_
  simp only [BitVec.and_allOnes, BitVec.and_zero, true_and]

end

/-! ## The decoder on table words -/

/-- What is read from a table word is what the frame decoder reads once the LRC nibble is right (log entry 7). -/
theorem tableView_frameOf (t e : Bit) (c : ChannelField) (a : Bit) (m : BitVec 3) (n l : Nibble) :
    tableView 16 (frameOf t e c a m n l).toNat = (decodeFrame ExtCode.standard (extPattern t e c a m n)).toOption := by
  rw [tableView, if_pos ⟨rfl, BitVec.isLt _⟩, BitVec.ofNat_toNat, BitVec.setWidth_eq, frameFields_eq_decodeFrame]
  cases decodeFrame ExtCode.standard (extPattern t e c a m n) <;> rfl

/-- A table word is read as a well-formed reading (log entry 7). -/
theorem reading_of_tableView {nbits w : Nat} {v : FrameView} (h : tableView nbits w = some v) : Reading v := by
  unfold tableView at h
  split at h
  case isFalse => cases h
  case isTrue =>
    split at h
    case h_1 read => cases h; exact reading_of_frameFields read
    case h_2 => cases h

/-- A reading with this mnemonic is read from a table word exactly when the word's field bits are its frame's. -/
theorem mnemonic_frameOf_iff (t e : Bit) (c : ChannelField) (a : Bit) (m : BitVec 3) (n l : Nibble) (x : String) :
    (decodeTableWord 16 (frameOf t e c a m n l).toNat).map Instr.mnemonic = some x ↔
      ∃ v, Reading v ∧ encodeFrame ExtCode.standard v = extPattern t e c a m n ∧ v.op.mnemonic = x := by
  rw [decodeTableWord, tableView_frameOf, Option.map_map, Option.map_eq_some_iff]
  constructor
  · rintro ⟨v, read, rfl⟩
    have decoded : decodeFrame ExtCode.standard (extPattern t e c a m n) = .ok v := by
      cases h : decodeFrame ExtCode.standard (extPattern t e c a m n) <;> rw [h] at read <;> cases read
      rfl
    obtain ⟨reading, encoded⟩ := encodeFrame_of_decodeFrame decoded
    exact ⟨v, reading, encoded, rfl⟩
  · rintro ⟨v, reading, encoded, rfl⟩
    refine ⟨v, ?_, rfl⟩
    rw [← encoded, frameDecodesToItsReading ExtCode.standard v (by decide) (wf_of_reading reading)]
    rfl

/-! ## The ten rows -/

/-- The rows: four, and one for each extended command (R66). -/
theorem mem_opcodeTable {row : OpcodeRow} (h : row ∈ opcodeTable) :
    row = ⟨"SO.PWM", 0x4E00, 0x0400⟩ ∨ row = ⟨"SO.DISC", 0x4E00, 0x0600⟩ ∨ row = ⟨"CPWM", 0xC000, 0x4000⟩ ∨
      row = ⟨"CDIR", 0xCF00, 0x0100⟩ ∨
      ∃ x : ExtCommand, row = ⟨x.instr.mnemonic, 0x47F0, frameOf 0 0 0 0 0 (ExtCode.standard.code x) 0⟩ := by
  simp only [opcodeTable, List.mem_cons, List.not_mem_nil, or_false] at h
  obtain h | h | h | h | extended := h
  · exact .inl h
  · exact .inr (.inl h)
  · exact .inr (.inr (.inl h))
  · exact .inr (.inr (.inr (.inl h)))
  · refine .inr (.inr (.inr (.inr ?_)))
    obtain rfl | rfl | rfl | rfl | rfl | rfl := extended
    exacts [⟨.brakeThenFloat, rfl⟩, ⟨.incrementSpeed, rfl⟩, ⟨.decrementSpeed, rfl⟩, ⟨.toggleForwardOrFloat, rfl⟩,
      ⟨.toggleAddress, rfl⟩, ⟨.alignToggle, rfl⟩]

/-! The mnemonic tells the format a frame is written in. -/

section
variable {codes : ExtCode} {v : FrameView}

theorem encodeFrame_of_soPwm (h : v.op.mnemonic = "SO.PWM") :
    ∃ d, encodeFrame codes v = soPattern v.toggle v.config.ch 0 v.config.out d := by
  obtain ⟨config, t, a, op⟩ := v
  cases op <;> simp [Instr.mnemonic] at h
  exact ⟨_, rfl⟩

theorem encodeFrame_of_soDisc (h : v.op.mnemonic = "SO.DISC") :
    ∃ d, encodeFrame codes v = soPattern v.toggle v.config.ch 1 v.config.out d := by
  obtain ⟨config, t, a, op⟩ := v
  cases op <;> simp [Instr.mnemonic] at h
  exact ⟨_, rfl⟩

theorem encodeFrame_of_cpwm (h : v.op.mnemonic = "CPWM") : ∃ b r, encodeFrame codes v = cpwmPattern v.config.ch b r := by
  obtain ⟨config, t, a, op⟩ := v
  cases op <;> simp [Instr.mnemonic] at h
  exact ⟨_, _, rfl⟩

theorem encodeFrame_of_cdir (h : v.op.mnemonic = "CDIR") : ∃ d, encodeFrame codes v = extPattern 0 0 v.config.ch 0 1 d := by
  obtain ⟨config, t, a, op⟩ := v
  cases op <;> simp [Instr.mnemonic] at h
  exact ⟨_, rfl⟩

theorem encodeFrame_of_ext {x : ExtCommand} (h : v.op.mnemonic = x.instr.mnemonic) :
    encodeFrame codes v = extPattern v.toggle 0 v.config.ch v.address 0 (codes.code x) := by
  obtain ⟨config, t, a, op⟩ := v
  cases x <;> cases op <;> simp [Instr.mnemonic, ExtCommand.instr] at h <;> rfl

end

/-! ## Each row and the operation it names -/

section
variable (t e : Bit) (c : ChannelField) (a : Bit) (m : BitVec 3) (n l : Nibble)

theorem soPwm_row_iff : frameOf t e c a m n l &&& 0x4E00 = 0x0400 ↔
    (decodeTableWord 16 (frameOf t e c a m n l).toNat).map Instr.mnemonic = some "SO.PWM" := by
  rw [mnemonic_frameOf_iff]
  refine (soMask_iff t e c a m n l 0).trans ⟨?_, ?_⟩
  · rintro ⟨rfl, rfl, o, rfl⟩
    obtain ⟨canonical, back⟩ := speedOfNibble_spec n
    exact ⟨_, .soPwm c o t canonical, by rw [encodeFrame_soPwm, back, soPattern_eq_extPattern], rfl⟩
  · rintro ⟨v, -, encoded, name⟩
    obtain ⟨d, written⟩ := encodeFrame_of_soPwm name
    obtain ⟨-, rfl, -, rfl, rfl, -⟩ := frameOf_inj (encoded.symm.trans (written.trans (soPattern_eq_extPattern ..)))
    exact ⟨rfl, rfl, _, rfl⟩

theorem soDisc_row_iff : frameOf t e c a m n l &&& 0x4E00 = 0x0600 ↔
    (decodeTableWord 16 (frameOf t e c a m n l).toNat).map Instr.mnemonic = some "SO.DISC" := by
  rw [mnemonic_frameOf_iff]
  refine (soMask_iff t e c a m n l 1).trans ⟨?_, ?_⟩
  · rintro ⟨rfl, rfl, o, rfl⟩
    exact ⟨_, .soDisc c o t n, by rw [encodeFrame_soDisc, soPattern_eq_extPattern], rfl⟩
  · rintro ⟨v, -, encoded, name⟩
    obtain ⟨d, written⟩ := encodeFrame_of_soDisc name
    obtain ⟨-, rfl, -, rfl, rfl, -⟩ := frameOf_inj (encoded.symm.trans (written.trans (soPattern_eq_extPattern ..)))
    exact ⟨rfl, rfl, _, rfl⟩

theorem cpwm_row_iff : frameOf t e c a m n l &&& 0xC000 = 0x4000 ↔
    (decodeTableWord 16 (frameOf t e c a m n l).toNat).map Instr.mnemonic = some "CPWM" := by
  rw [mnemonic_frameOf_iff, cpwmMask_iff]
  constructor
  · rintro ⟨rfl, rfl⟩
    obtain ⟨red, redBack⟩ := speedOfNibble_spec n
    obtain ⟨blue, blueBack⟩ := speedOfNibble_spec (a ++ m)
    exact ⟨_, .cpwm c red blue, by rw [encodeFrame_cpwm, redBack, blueBack, cpwmPattern_eq_extPattern], rfl⟩
  · rintro ⟨v, -, encoded, name⟩
    obtain ⟨b, r, written⟩ := encodeFrame_of_cpwm name
    obtain ⟨a', m', rfl⟩ := exists_append (v := 1) (w := 3) b
    obtain ⟨rfl, rfl, -⟩ := frameOf_inj (encoded.symm.trans (written.trans (cpwmPattern_eq_extPattern ..)))
    exact ⟨rfl, rfl⟩

theorem cdir_row_iff : frameOf t e c a m n l &&& 0xCF00 = 0x0100 ↔
    (decodeTableWord 16 (frameOf t e c a m n l).toNat).map Instr.mnemonic = some "CDIR" := by
  rw [mnemonic_frameOf_iff, cdirMask_iff]
  constructor
  · rintro ⟨rfl, rfl, rfl, rfl⟩
    obtain ⟨b, r, rfl⟩ := exists_append (v := 2) (w := 2) n
    exact ⟨_, .cdir c (.ofCode r) (.ofCode b), by rw [encodeFrame_cdir, code_ofCode, code_ofCode], rfl⟩
  · rintro ⟨v, -, encoded, name⟩
    obtain ⟨d, written⟩ := encodeFrame_of_cdir name
    obtain ⟨rfl, rfl, -, rfl, rfl, -⟩ := frameOf_inj (encoded.symm.trans written)
    exact ⟨rfl, rfl, rfl, rfl⟩

theorem ext_row_iff (x : ExtCommand) :
    frameOf t e c a m n l &&& 0x47F0 = frameOf 0 0 0 0 0 (ExtCode.standard.code x) 0 ↔
      (decodeTableWord 16 (frameOf t e c a m n l).toNat).map Instr.mnemonic = some x.instr.mnemonic := by
  rw [mnemonic_frameOf_iff, extMask_iff]
  constructor
  · rintro ⟨rfl, rfl, rfl⟩
    exact ⟨_, .ext c t a x, encodeFrame_ext .., rfl⟩
  · rintro ⟨v, -, encoded, name⟩
    obtain ⟨-, rfl, -, -, rfl, rfl, -⟩ := frameOf_inj (encoded.symm.trans (encodeFrame_of_ext name))
    exact ⟨rfl, rfl, rfl⟩

end

/-- Settles O15: the word cut into its fields, and then row by row. -/
theorem decoderFollowsTheOpcodeTable : Obligations.DecoderFollowsTheOpcodeTable := by
  intro w row hrow
  obtain ⟨t, e, c, a, m, n, l, rfl⟩ := exists_frameOf w
  obtain rfl | rfl | rfl | rfl | ⟨x, rfl⟩ := mem_opcodeTable hrow
  · exact soPwm_row_iff t e c a m n l
  · exact soDisc_row_iff t e c a m n l
  · exact cpwm_row_iff t e c a m n l
  · exact cdir_row_iff t e c a m n l
  · exact ext_row_iff t e c a m n l x

end Sys2Proof.Machine
end

section
/-! PROOFS. What the host is answered (30_encoding.md R64, R65; 41_packer_lrc_render.md R80, R85, R86; 60_exceptions.md R121, R122): the
frame of a well-formed reading, or BadCommand, and so the invariant of the responses. -/

namespace Sys2Proof.Machine

/-! ## Reading a rendering back (R85, R86) -/

/-- The bits of a number, summed. -/
theorem bitsToNat_eq_mod {b : Nat → Bool} {x n : Nat} (h : ∀ j, j < n → b j = x.testBit j) :
    bitsToNat b n = x % 2 ^ n := by
  induction n with
  | zero => exact (Nat.mod_one x).symm
  | succ n ih =>
    rw [bitsToNat, ih fun j hj => h j (by omega), h n (by omega), Nat.toNat_testBit, Nat.mod_pow_succ, Nat.mul_comm]

/-- Element 33 - 2j of a rendering is the space of bit j (R85). -/
theorem render_getElem?_space (f : Frame) {j : Nat} (h : j < 16) :
    (render f)[33 - 2 * j]? = some (if f.getLsbD j then oneUs else zeroUs) := by
  interval_cases j <;> rfl

/-- The frame read from a rendering is the one rendered (R86). -/
theorem readFrame_render (f : Frame) : readFrame (render f) = f := by
  have bits (j : Nat) (h : j < 16) : decide ((render f)[33 - 2 * j]? = some oneUs) = f.toNat.testBit j := by
    rw [render_getElem?_space f h, BitVec.testBit_toNat]
    cases f.getLsbD j <;> rfl
  rw [readFrame, bitsToNat_eq_mod bits, Nat.mod_eq_of_lt f.isLt, BitVec.ofNat_toNat, BitVec.setWidth_eq]

theorem frameOfPulses_render (f : Frame) : frameOfPulses (render f) = some f := by
  rw [frameOfPulses, readFrame_render, if_pos rfl]

/-! ## Answers are readings -/

/-- A command is answered with the frame of a well-formed reading of its protocol, or with BadCommand on an EXT interface
(R64, R121). -/
theorem reading_of_answer {codes : ExtCode} {r : Request} {v w : InstanceView} {res : Result}
    (h : v.answer codes r = some (res, w)) :
    (∃ x, Reading x ∧ x.config.proto = (requestPort r).proto ∧ res = .ok (render (encodeFrame codes x))) ∨
      (r.legal = false ∧ (requestPort r).proto = .ext ∧ res = .err .badCommand) := by
  cases r <;> cases v <;> try cases h
  case so.so k cmd i =>
    simp only [InstanceView.answer] at h
    split at h
    · cases h
      obtain ⟨canonical, back⟩ := speedOfNibble_spec (speedNibble cmd.speed)
      exact .inl ⟨_, .soPwm i.ch i.out i.t canonical, rfl, by rw [encodeFrame_soPwm, back]⟩
    · cases h
      exact .inl ⟨_, .soDisc i.ch i.out i.t cmd.code, rfl, by rw [encodeFrame_soDisc]⟩
  case cpwm.cpwm k cmd i =>
    obtain ⟨red, redBack⟩ := speedOfNibble_spec (speedNibble cmd.speedRed)
    obtain ⟨blue, blueBack⟩ := speedOfNibble_spec (speedNibble cmd.speedBlue)
    exact .inl ⟨_, .cpwm i.ch red blue, rfl, by rw [encodeFrame_cpwm, redBack, blueBack]⟩
  case cdir.cdir k cmd i =>
    exact .inl ⟨_, .cdir i.ch (.ofCode cmd.red) (.ofCode cmd.blue), rfl, rfl⟩
  case ext.ext k cmd i =>
    simp only [InstanceView.answer] at h
    split at h
    case h_1 x _ => cases h; exact .inl ⟨_, .ext i.ch i.t i.a x, rfl, by rw [encodeFrame_ext]⟩
    case h_2 none => cases h; exact .inr ⟨by rw [legal_ext, none]; rfl, rfl, rfl⟩

/-! ## The invariant -/

theorem valid_of_reading {codes : ExtCode} {x : FrameView} {p : Port} (injective : codes.injective = true)
    (reading : Reading x) (proto : x.config.proto = p.proto) :
    (Response.mk p (.ok (render (encodeFrame codes x)))).valid codes = true := by
  simp only [Response.valid, frameOfPulses_render, frameDecodesToItsReading codes x injective (wf_of_reading reading),
    proto, decide_true]

theorem valid_of_badCommand (codes : ExtCode) {p : Port} (proto : p.proto = .ext) :
    (Response.mk p (.err .badCommand)).valid codes = true := by
  simp only [Response.valid, proto, decide_true, Bool.and_self]

/-- An answer is a valid response (R64, R121, R122). -/
theorem valid_of_answer {codes : ExtCode} {r : Request} {v w : InstanceView} {res : Result}
    (injective : codes.injective = true) (h : v.answer codes r = some (res, w)) :
    (Response.mk (requestPort r) res).valid codes = true := by
  obtain ⟨x, reading, proto, rfl⟩ | ⟨-, proto, rfl⟩ := reading_of_answer h
  · exact valid_of_reading injective reading proto
  · exact valid_of_badCommand codes proto

/-- The invariant speaks of EXT_CODE and the responses only. -/
theorem inv_of_same {s t : State} (h : s.Inv) (codes : t.codes = s.codes) (responses : t.responses = s.responses) : t.Inv := by
  rwa [State.Inv, codes, responses]

/-- Settles O43: a command appends the valid response of its answer; every other action keeps EXT_CODE and the responses. -/
theorem everyStepKeepsResponsesValid : Obligations.EveryStepKeepsResponsesValid := by
  intro s t inv h
  cases taken_of_step h with
  | idle => exact inv
  | construct => exact inv_of_same inv (construct_codes ..) (construct_responses ..)
  | reset => exact inv_of_same inv (put_codes ..) (put_responses ..)
  | send => exact inv_of_same inv rfl rfl
  | powerOff => exact inv_of_same inv rfl rfl
  | command _ _ answered =>
    obtain ⟨injective, valid⟩ := inv
    rw [State.Inv, answered_codes, answered_responses]
    refine ⟨injective, fun r hr => ?_⟩
    obtain old | new := List.mem_append.mp hr
    · exact valid r old
    · exact List.mem_singleton.mp new ▸ valid_of_answer injective answered

/-- Settles O44: the default codes differ from each other, and nothing has been answered yet (log entries 4 and 5). -/
theorem resetMeetsTheInvariant : Obligations.ResetMeetsTheInvariant :=
  ⟨by decide, fun _ h => absurd h List.not_mem_nil⟩

end Sys2Proof.Machine
end

section
/-! PROOFS. The shapes no operation emits (30_encoding.md R64), the operation a record names (R65), and the operation of a placed
table word (R66; log entry 6). -/

namespace Sys2Proof.Machine

/-! ## Operations and their records -/

/-- The record of an operation names it, on the interface it is written for (R65). -/
theorem toRequest_spec (i : Instr) : Laws.RecordRoundTrip.Statement i := by
  cases i with
  | soPwm speed => exact Laws.RecordRoundTrip.soPwm speed
  | soDisc code => exact Laws.RecordRoundTrip.soDisc code
  | cpwm red blue => exact Laws.RecordRoundTrip.cpwm red blue
  | cdir red blue => exact Laws.RecordRoundTrip.cdir red blue
  | extBrk => exact Laws.RecordRoundTrip.extBrk
  | extInc => exact Laws.RecordRoundTrip.extInc
  | extDec => exact Laws.RecordRoundTrip.extDec
  | extTgf => exact Laws.RecordRoundTrip.extTgf
  | extTga => exact Laws.RecordRoundTrip.extTga
  | extAln => exact Laws.RecordRoundTrip.extAln

/-- An operation on an existing interface completes with the frame of a reading of its protocol (R64, R83). -/
theorem exec_of_has {i : Instr} {s : State} (h : s.has (portOf i s) = true) :
    ∃ t x, Reading x ∧ exec i s = .next t ∧
      t.responses = s.responses ++ [⟨portOf i s, .ok (render (encodeFrame s.codes x))⟩] := by
  obtain ⟨decoded, index, legal⟩ := toRequest_spec i s.sel
  obtain ⟨v, viewed⟩ := view_of_has h
  obtain ⟨res, w, answered, accepted⟩ := acceptCommand_eq viewed
  rw [acceptCommand_of_decode_ok h decoded, index] at accepted
  obtain ⟨x, reading, -, rfl⟩ | ⟨illegal, -⟩ := reading_of_answer answered
  · exact ⟨_, x, reading, accepted, answered_responses ..⟩
  · cases legal.symm.trans illegal

/-! ## Forbidden shapes -/

/-- The forbidden shapes of R64, on a frame with its checksum. -/
theorem forbiddenFrame_extPattern (t e : Bit) (c : ChannelField) (a : Bit) (m : BitVec 3) (n : Nibble) :
    forbiddenFrame (extPattern t e c a m n) =
      ((decide (e = 0) && !m.getLsbD 2 && m.getLsbD 1) || (decide (e = 0) && m.getLsbD 2 && decide (a = 1)) ||
        (decide (e = 1) && decide (t = 1)) || (decide (e = 0) && decide (m = 1) && (decide (t = 1) || decide (a = 1)))) := by
  have lrc : (extPattern t e c a m n).extractLsb' 12 4 ^^^ (extPattern t e c a m n).extractLsb' 8 4 ^^^
      (extPattern t e c a m n).extractLsb' 4 4 ^^^ (extPattern t e c a m n).extractLsb' 0 4 = (0xF : Nibble) :=
    of_decide_eq_true ((lrcHolds_frameOf t e c a m n _).mpr rfl)
  have escape : (!decide (e = 1)) = decide (e = 0) := by clear lrc; revert e; decide
  rw [forbiddenFrame, lrc, extPattern_eq_frameOf]
  simp only [frameOf_getLsbD_fifteen, frameOf_getLsbD_fourteen, frameOf_getLsbD_eleven, frameOf_getLsbD_ten,
    frameOf_getLsbD_nine, frameOf_mode, escape, ne_eq, not_true, decide_false, Bool.or_false]

/-- No reading's frame has a forbidden shape (R64). -/
theorem forbiddenFrame_of_reading (codes : ExtCode) {x : FrameView} (h : Reading x) :
    forbiddenFrame (encodeFrame codes x) = false := by
  cases h with
  | soPwm c o t canonical =>
    rw [encodeFrame_soPwm, soPattern_eq_extPattern, forbiddenFrame_extPattern]
    revert t o; decide
  | soDisc c o t d =>
    rw [encodeFrame_soDisc, soPattern_eq_extPattern, forbiddenFrame_extPattern]
    revert t o; decide
  | @cpwm c r b =>
    obtain ⟨a, m, split⟩ := exists_append (v := 1) (w := 3) (nibbleOfSpeed b)
    rw [encodeFrame_cpwm, split, cpwmPattern_eq_extPattern, forbiddenFrame_extPattern]
    rfl
  | cdir c r b =>
    rw [encodeFrame_cdir, forbiddenFrame_extPattern]
    rfl
  | ext c t a x =>
    rw [encodeFrame_ext, forbiddenFrame_extPattern]
    rfl

/-- Settles O16: the frame is that of a reading. -/
theorem noOperationEmitsAForbiddenFrame : Obligations.NoOperationEmitsAForbiddenFrame := by
  intro i s present
  obtain ⟨t, x, reading, completed, responses⟩ := exec_of_has present
  exact ⟨t, _, completed, responses, forbiddenFrame_of_reading s.codes reading⟩

/-! ## What a record stands for -/

/-- R65: a record is legal exactly when it names an operation. -/
theorem legal_iff_decode (r : Request) : r.legal = true ↔ ∃ i, r.decode = .ok i := by
  cases r with
  | so k cmd => exact ⟨fun _ => ⟨_, rfl⟩, fun _ => rfl⟩
  | cpwm k cmd => exact ⟨fun _ => ⟨_, rfl⟩, fun _ => rfl⟩
  | cdir k cmd => exact ⟨fun _ => ⟨_, rfl⟩, fun _ => rfl⟩
  | ext k cmd =>
    rw [legal_ext]
    cases selected : ExtCommand.ofSelector cmd.xcmd with
    | some x => exact ⟨fun _ => ⟨_, decode_ext_of_some selected⟩, fun _ => rfl⟩
    | none => simp [decode_ext_of_none selected]

/-- Settles O18: record by record, with the code table of R59 read backwards and the records that name nothing. -/
theorem commandRecordsNameOperations : Obligations.CommandRecordsNameOperations := by
  refine ⟨fun _ _ _ => ⟨rfl, rfl⟩, fun _ _ _ => rfl, fun k r b => ?_, ⟨rfl, rfl, rfl, rfl⟩, code_ofCode, fun k => ?_,
    legal_iff_decode⟩
  · exact (toRequest_spec (.cdir r b) k).1
  · exact ⟨rfl, rfl, rfl, rfl, rfl, rfl, rfl, rfl⟩

/-! ## A placed table word -/

/-- The interface of an operation's protocol at an index. -/
def portAt (k : Nat) : Proto → Port
  | .so => .so k
  | .cpwm => .cpwm k
  | .cdir => .cdir k
  | .ext => .ext k

theorem requestPort_toRequest (i : Instr) (k : Nat) : requestPort (i.toRequest k) = portAt k i.proto := by
  cases i <;> rfl

/-- The first entry that is found, or the one appended because none is, stands at the index of the search. -/
theorem findOrAppend_findIdx {α : Type} {found : α → Bool} {fresh : α} (h : found fresh = true) (bank : List α) :
    ∃ x, (findOrAppend found fresh bank)[bank.findIdx found]? = some x ∧ found x = true := by
  unfold findOrAppend
  split
  case isTrue some =>
    have inside : bank.findIdx found < bank.length := List.findIdx_lt_length.mpr (List.any_eq_true.mp some)
    exact ⟨_, List.getElem?_eq_getElem inside, List.findIdx_getElem⟩
  case isFalse none =>
    have outside : bank.findIdx found = bank.length := List.findIdx_eq_length.mpr (by simpa using none)
    exact ⟨fresh, by rw [outside, List.getElem?_append_right le_rfl]; simp, h⟩

/-- A step on the record of an operation, presented on an interface of its protocol, runs it and completes. -/
theorem step_of_toRequest {s : State} {i : Instr} {k : Nat} {p : Proto} {rest : List HostEvent}
    (pending : s.pending = .command (i.toRequest k) :: rest) (proto : i.proto = p) (present : s.has (portAt k p) = true) :
    step s = exec i { s with pending := rest, sel := k } ∧
      ∃ t, exec i { s with pending := rest, sel := k } = .next t := by
  rw [← proto, ← requestPort_toRequest] at present
  obtain ⟨decoded, index, -⟩ := toRequest_spec i k
  obtain ⟨runs, -⟩ := stepRunsTheNamedOperation
  have stepped := runs s _ rest i pending decoded present
  rw [index] at stepped
  obtain ⟨t, -, -, completed, -⟩ := exec_of_has (i := i) (s := { s with pending := rest, sel := k })
    ((has_with_host_side s _ k rest).trans present)
  exact ⟨stepped, t, completed⟩

/-- Settles O36: the reading's operation is of its configuration's protocol, and the bank it is placed in has an entry of that
configuration at the index of the record. -/
theorem placedTableWordRunsNext : Obligations.PlacedTableWordRunsNext := by
  intro s w i named
  obtain ⟨v, viewed, rfl⟩ := Option.map_eq_some_iff.mp named
  obtain ⟨proto, -⟩ := (wf_iff v).mp (wf_of_reading (reading_of_tableView viewed))
  rw [State.withFetchWord, placeTableWord, viewed]
  obtain ⟨config, t, a, op⟩ := v
  cases config with
  | so ch out =>
    obtain ⟨i, entry, same⟩ := findOrAppend_findIdx
      (found := fun i : SoInstance => decide (i.ch = ch) && decide (i.out = out)) (fresh := ⟨ch, out, 0⟩) (by simp) s.so
    obtain ⟨rfl, rfl⟩ : i.ch = ch ∧ i.out = out := by simpa using same
    obtain ⟨stepped, u, completed⟩ :=
      step_of_toRequest (s := placeView ⟨.so i.ch i.out, t, a, op⟩ s) rfl proto (has_so entry)
    exact ⟨_, _, u, rfl, rfl, stepped, completed, rfl, rfl, rfl, rfl, i.t, entry⟩
  | cpwm ch =>
    obtain ⟨i, entry, same⟩ := findOrAppend_findIdx
      (found := fun i : CpwmInstance => decide (i.ch = ch)) (fresh := ⟨ch⟩) (decide_eq_true rfl) s.cpwm
    obtain rfl : i.ch = ch := of_decide_eq_true same
    obtain ⟨stepped, u, completed⟩ :=
      step_of_toRequest (s := placeView ⟨.cpwm i.ch, t, a, op⟩ s) rfl proto (has_cpwm entry)
    exact ⟨_, _, u, rfl, rfl, stepped, completed, rfl, rfl, rfl, rfl, entry⟩
  | cdir ch =>
    obtain ⟨i, entry, same⟩ := findOrAppend_findIdx
      (found := fun i : CdirInstance => decide (i.ch = ch)) (fresh := ⟨ch⟩) (decide_eq_true rfl) s.cdir
    obtain rfl : i.ch = ch := of_decide_eq_true same
    obtain ⟨stepped, u, completed⟩ :=
      step_of_toRequest (s := placeView ⟨.cdir i.ch, t, a, op⟩ s) rfl proto (has_cdir entry)
    exact ⟨_, _, u, rfl, rfl, stepped, completed, rfl, rfl, rfl, rfl, entry⟩
  | ext ch =>
    obtain ⟨i, entry, same⟩ := findOrAppend_findIdx
      (found := fun i : ExtInstance => decide (i.ch = ch)) (fresh := ⟨ch, 0, 0⟩) (decide_eq_true rfl) s.ext
    obtain rfl : i.ch = ch := of_decide_eq_true same
    obtain ⟨stepped, u, completed⟩ :=
      step_of_toRequest (s := placeView ⟨.ext i.ch, t, a, op⟩ s) rfl proto (has_ext entry)
    exact ⟨_, _, u, rfl, rfl, stepped, completed, rfl, rfl, rfl, rfl, i.t, i.a, entry⟩

end Sys2Proof.Machine
end

section
/-! PROOFS. The speed quantizer (40_quantizer.md R70 to R75): CLAMP range by range, QUANTIZE as CLAMP mod 16, and what follows from
the two by arithmetic. -/

namespace Sys2Proof.Machine

/-! ## CLAMP, range by range (R71) -/

theorem clamp_of_gt {s : Int} (above : 8 < s) : clamp s = 7 := by
  rw [clamp, if_neg above.ne', if_pos above]

theorem clamp_of_lt {s : Int} (below : s < -7) : clamp s = -7 := by
  rw [clamp, if_neg (by omega), if_neg (by omega), if_pos below]

/-- A speed of the logical domain, the brake value 8 included, is kept. -/
theorem clamp_of_mem {s : Int} (lower : -7 ≤ s) (upper : s ≤ 8) : clamp s = s := by
  unfold clamp
  split
  case isTrue brake => exact brake.symm
  case isFalse => rw [if_neg (by omega), if_neg (by omega)]

@[simp] theorem clamp_clamp (s : Int) : clamp (clamp s) = clamp s :=
  clamp_of_mem (clamp_range s).1 (clamp_range s).2

/-- Braking is reachable by the exact value 8 only (R71, R75). -/
theorem clamp_eq_eight_iff (s : Int) : clamp s = 8 ↔ s = 8 := by
  obtain above | bounded := lt_or_ge 8 s
  · rw [clamp_of_gt above]; omega
  obtain below | domain := lt_or_ge s (-7)
  · rw [clamp_of_lt below]; omega
  · rw [clamp_of_mem domain bounded]

/-! ## QUANTIZE (R70, R73) -/

/-- The equivalent form of R73: each branch of QUANTIZE is the remainder of the clamped speed. -/
theorem quantize_eq_clamp_emod (s : Int) : (quantize s : Int) = clamp s % 16 := by
  have range := clamp_range s
  simp only [quantize]
  split_ifs <;> omega

/-- On the clamped range -7..8 no two speeds have one remainder, so QUANTIZE tells clamped speeds apart. -/
theorem quantize_eq_iff (r s : Int) : quantize r = quantize s ↔ clamp r = clamp s := by
  have := clamp_range r
  have := clamp_range s
  have := quantize_eq_clamp_emod r
  have := quantize_eq_clamp_emod s
  omega

@[simp] theorem quantize_clamp (s : Int) : quantize (clamp s) = quantize s :=
  (quantize_eq_iff _ _).mpr (clamp_clamp s)

theorem quantize_of_clamp_nonneg {s : Int} (nonneg : 0 ≤ clamp s) : (quantize s : Int) = clamp s :=
  (quantize_eq_clamp_emod s).trans (Int.emod_eq_of_lt nonneg ((clamp_range s).2.trans_lt (by decide)))

theorem quantize_of_clamp_neg {s : Int} (neg : clamp s < 0) : (quantize s : Int) = 16 + clamp s := by
  have := clamp_range s
  have := quantize_eq_clamp_emod s
  omega

theorem quantize_of_gt {s : Int} (above : 8 < s) : quantize s = 7 :=
  (quantize_eq_iff s 7).mpr ((clamp_of_gt above).trans (clamp_of_mem (by decide) (by decide)).symm)

theorem quantize_of_lt {s : Int} (below : s < -7) : quantize s = 9 :=
  (quantize_eq_iff s (-7)).mpr ((clamp_of_lt below).trans (clamp_of_mem le_rfl (by decide)).symm)

/-- The nibble of a clamped speed, as a bit vector, is the speed's low four bits. -/
theorem ofNat_quantize (s : Int) : BitVec.ofNat 4 (quantize s) = BitVec.ofInt 4 (clamp s) := by
  apply BitVec.eq_of_toNat_eq
  have := quantize_lt s
  have := quantize_eq_clamp_emod s
  rw [BitVec.toNat_ofNat, BitVec.toNat_ofInt]
  omega

/-- Each nibble is reached from -7..8: up to 8 from itself, above 8 from its negative counterpart (R72). -/
theorem exists_quantize_eq {n : Nat} (nibble : n < 16) : ∃ s : Int, -7 ≤ s ∧ s ≤ 8 ∧ quantize s = n := by
  have reached : ∀ s : Int, -7 ≤ s → s ≤ 8 → s % 16 = n → quantize s = n := fun s lower upper remainder => by
    have form := quantize_eq_clamp_emod s
    rw [clamp_of_mem lower upper, remainder] at form
    exact Int.ofNat_inj.mp form
  by_cases small : n ≤ 8
  · exact ⟨n, by omega, by omega, reached _ (by omega) (by omega) (by omega)⟩
  · exact ⟨n - 16, by omega, by omega, reached _ (by omega) (by omega) (by omega)⟩

/-! ## The statements -/

/-- Settles O2: the remainder form, read for either sign of the clamped speed. -/
theorem quantizeIsLowNibbleOfClamp : Obligations.QuantizeIsLowNibbleOfClamp := fun s =>
  ⟨quantize_eq_clamp_emod s, ofNat_quantize s, quantize_of_clamp_nonneg, fun neg => by
    rw [quantize_of_clamp_neg neg, Int.ofNat_natAbs_of_nonpos neg.le, sub_neg_eq_add]⟩

/-- Settles O4: the table range by range; a preimage in -7..8 is its own clamped speed, so QUANTIZE has only one there. -/
theorem quantizeTableAndUniquePreimage : Obligations.QuantizeTableAndUniquePreimage := by
  refine ⟨fun s => ⟨fun upper => ?_, fun lower upper => ?_, fun lower upper => ?_, fun lower => ?_⟩, fun n nibble => ?_⟩
  · exact ⟨clamp_of_lt (Int.lt_of_le_sub_one upper), quantize_of_lt (Int.lt_of_le_sub_one upper)⟩
  · have kept : clamp s.toInt = s.toInt := clamp_of_mem lower (by omega)
    exact ⟨kept, by rw [quantize_of_clamp_neg (by omega), kept]⟩
  · have kept : clamp s.toInt = s.toInt := clamp_of_mem (by omega) upper
    exact ⟨kept, by rw [quantize_of_clamp_nonneg (by omega), kept]⟩
  · exact ⟨clamp_of_gt lower, quantize_of_gt lower⟩
  · obtain ⟨s, lower, upper, rfl⟩ := exists_quantize_eq nibble
    refine ⟨s, lower, upper, rfl, fun r rLower rUpper same => ?_⟩
    rwa [quantize_eq_iff, clamp_of_mem rLower rUpper, clamp_of_mem lower upper] at same

/-- Settles O1: the ranges of CLAMP; 8 is the one speed with the clamped value, and so the nibble, of 8. -/
theorem clampKeepsEightAndSaturates : Obligations.ClampKeepsEightAndSaturates :=
  ⟨clamp_of_mem (by decide) le_rfl, fun _ above => ⟨clamp_of_gt above, quantize_of_gt above⟩,
    fun _ below => ⟨clamp_of_lt below, quantize_of_lt below⟩,
    fun _ lower upper => clamp_of_mem lower (upper.trans (by decide)),
    fun s => (quantize_eq_iff s 8).trans (clamp_eq_eight_iff s), clamp_of_lt (by decide), quantize_of_lt (by decide)⟩

/-- Settles O3: the two laws from CLAMP being the identity on its range, the equalities from the ranges of CLAMP. -/
theorem quantizeAfterClampIsQuantize : Obligations.QuantizeAfterClampIsQuantize :=
  ⟨fun s => ⟨clamp_clamp s, quantize_clamp s⟩, quantize_of_gt (by decide), rfl, quantize_of_lt (by decide), rfl, rfl, rfl⟩

end Sys2Proof.Machine
end

section
/-! PROOFS. PACK and LRC (41_packer_lrc_render.md R77 to R82): when PACK fails, where each field stands in the frame it makes, and what
the LRC nibble says of the frame's bit columns. -/

namespace Sys2Proof.Machine

/-! ## The two outcomes of PACK (R81, R82) -/

theorem pack_of_fits {fl : FieldList} (fits : ∀ g ∈ fl.fields, g.value < 2 ^ g.width) :
    pack fl = .ok (withLrc (BitVec.ofNat 12 (concatValues fl.fields))) :=
  if_pos (List.all_eq_true.mpr fun g hg => decide_eq_true (fits g hg))

theorem pack_of_too_wide {fl : FieldList} (wide : ∃ f ∈ fl.fields, 2 ^ f.width ≤ f.value) :
    pack fl = .error .fieldOverflow := by
  obtain ⟨f, hf, tooWide⟩ := wide
  exact if_neg fun all => absurd (of_decide_eq_true (List.all_eq_true.mp all f hf)) (Nat.not_lt.mpr tooWide)

theorem fits_or_too_wide (fl : FieldList) :
    (∀ g ∈ fl.fields, g.value < 2 ^ g.width) ∨ ∃ f ∈ fl.fields, 2 ^ f.width ≤ f.value := by
  by_cases fits : ∀ g ∈ fl.fields, g.value < 2 ^ g.width
  · exact .inl fits
  · push Not at fits
    exact .inr fits

/-- Every frame PACK makes is twelve field bits with their LRC (R80, R81). -/
theorem exists_withLrc_of_pack {fl : FieldList} {w : Frame} (h : pack fl = .ok w) : ∃ b : Body, w = withLrc b := by
  obtain fits | wide := fits_or_too_wide fl
  · exact ⟨_, Except.ok.inj (h.symm.trans (pack_of_fits fits))⟩
  · cases h.symm.trans (pack_of_too_wide wide)

/-- Settles O6: PACK's error is delivered as the response, and nothing is committed. -/
theorem fieldOverflowEndsTheOperation : Obligations.FieldOverflowEndsTheOperation := by
  refine ⟨fun fl => ⟨fun overflow => ?_, pack_of_too_wide⟩, fun fl p commit s wide => ⟨?_, rfl⟩⟩
  · obtain fits | wide := fits_or_too_wide fl
    · cases overflow.symm.trans (pack_of_fits fits)
    · exact wide
  · rw [pack_of_too_wide wide, deliver_error, respond]

/-! ## The concatenation of the values (R81) -/

theorem concatValues_concat (l : List Field) (f : Field) :
    concatValues (l ++ [f]) = concatValues l * 2 ^ f.width + f.value :=
  List.foldl_append

/-- The values of a list's second part stand below those of the first. -/
theorem concatValues_append (l m : List Field) :
    concatValues (l ++ m) = concatValues l * 2 ^ (m.map Field.width).sum + concatValues m := by
  induction m using List.reverseRecOn with
  | nil => simp [concatValues]
  | append_singleton m f ih =>
    rw [← List.append_assoc, concatValues_concat, concatValues_concat, ih]
    simp only [List.map_append, List.sum_append, List.map_cons, List.map_nil, List.sum_singleton, pow_add]
    ring

/-- Values that fit their widths fit the sum of the widths together. -/
theorem concatValues_lt {l : List Field} (fits : ∀ g ∈ l, g.value < 2 ^ g.width) :
    concatValues l < 2 ^ (l.map Field.width).sum := by
  induction l using List.reverseRecOn with
  | nil => exact Nat.one_pos
  | append_singleton l f ih =>
    have initial := ih fun g hg => fits g (List.mem_append_left _ hg)
    have last := fits f (List.mem_append_right _ (List.mem_singleton_self f))
    rw [concatValues_concat, List.map_append, List.sum_append, pow_add]
    calc concatValues l * 2 ^ f.width + f.value
      _ < (concatValues l + 1) * 2 ^ f.width := by rw [Nat.succ_mul]; omega
      _ ≤ 2 ^ (l.map Field.width).sum * 2 ^ f.width := Nat.mul_le_mul_right _ initial

/-- A value is read back from the concatenation at the sum of the widths after it. -/
theorem concatValues_read {before after : List Field} {f : Field}
    (fits : ∀ g ∈ before ++ f :: after, g.value < 2 ^ g.width) :
    concatValues (before ++ f :: after) / 2 ^ (after.map Field.width).sum % 2 ^ f.width = f.value := by
  have below := concatValues_lt fun g hg => fits g (List.mem_append_right _ (List.mem_cons_of_mem _ hg))
  have own := fits f (List.mem_append_right _ List.mem_cons_self)
  rw [List.append_cons, concatValues_append, concatValues_concat, Nat.add_comm, Nat.add_mul_div_right _ _ (Nat.two_pow_pos _),
    Nat.div_eq_of_lt below, Nat.zero_add, Nat.mul_add_mod_of_lt own]

/-! ## The LRC of twelve field bits (R77, R80) -/

/-- The frame holds its field bits above the LRC nibble. -/
theorem withLrc_extractLsb'_add_four (b : Body) (k len : Nat) :
    (withLrc b).extractLsb' (k + 4) len = b.extractLsb' k len :=
  BitVec.extractLsb'_append_eq_of_le (by omega)

theorem withLrc_toNat_div (b : Body) : (withLrc b).toNat / 2 ^ 4 = b.toNat := by
  rw [withLrc, BitVec.toNat_append, ← Nat.shiftLeft_add_eq_or_of_lt (BitVec.isLt _), Nat.shiftLeft_eq,
    Nat.add_comm, Nat.add_mul_div_right _ _ (Nat.two_pow_pos 4), Nat.div_eq_of_lt (BitVec.isLt _), Nat.zero_add]

/-- The LRC check is that the last nibble is the LRC of the three above it (R77, R80). -/
theorem lrcHolds_iff (f : Frame) : lrcHolds f = true ↔
    f.extractLsb' 0 4 = lrc (f.extractLsb' 12 4) (f.extractLsb' 8 4) (f.extractLsb' 4 4) := by
  rw [lrcHolds, decide_eq_true_eq, xor_eq_iff_eq_xor, lrc, BitVec.xor_assoc, BitVec.xor_assoc, BitVec.xor_assoc]

theorem lrcHolds_withLrc (b : Body) : lrcHolds (withLrc b) = true := by
  rw [lrcHolds_iff, withLrc_extractLsb'_add_four b 8, withLrc_extractLsb'_add_four b 4, withLrc_extractLsb'_add_four b 0]
  exact BitVec.extractLsb'_append_eq_right

/-- What changes in the field bits changes in the LRC, column by column. -/
theorem withLrc_xor (b d : Body) : withLrc (b ^^^ d) =
    withLrc b ^^^ (d ++ (d.extractLsb' 8 4 ^^^ d.extractLsb' 4 4 ^^^ d.extractLsb' 0 4)) := by
  simp only [withLrc, lrc, BitVec.extractLsb'_xor]
  refine Eq.symm ((BitVec.xor_append ..).trans ?_)
  congr 1
  ac_rfl

/-- Settles O7: the values are concatenated below 2^12, so PACK's twelve bits lose none of them. -/
theorem packPlacesEveryField : Obligations.PackPlacesEveryField := by
  refine ⟨fun fl before after f split fits => ⟨_, pack_of_fits fits, ?_, (lrcHolds_iff _).mp (lrcHolds_withLrc _)⟩,
    fun t c m o d => ⟨soFields t c m o d, rfl, rfl⟩, fun c b a => ⟨cpwmFields c b a, rfl, rfl⟩,
    fun t e c a m d => ⟨extFields t e c a m d, rfl, rfl⟩⟩
  have small := concatValues_lt fits
  rw [fl.total] at small
  rw [pow_add, ← Nat.div_div_eq_div_mul, withLrc_toNat_div, BitVec.toNat_ofNat, Nat.mod_eq_of_lt small, split]
  exact concatValues_read (split ▸ fits)

/-! ## The columns of a frame (R80) -/

/-- How many ones stand in column `j` of the four nibbles. -/
def columnOnes (f : Frame) (j : Nat) : Nat := [j, j + 4, j + 8, j + 12].countP fun n => f.getLsbD n

theorem one_or_three_of_xor : ∀ b₀ b₁ b₂ b₃ : Bool, (b₃ ^^ b₂ ^^ b₁ ^^ b₀) = true →
    [b₀, b₁, b₂, b₃].countP id = 1 ∨ [b₀, b₁, b₂, b₃].countP id = 3 := by
  decide

/-- The nibbles xor to 0xF, so each column xors to 1. -/
theorem columnOnes_of_lrcHolds {f : Frame} (h : lrcHolds f = true) {j : Nat} (column : j < 4) :
    columnOnes f j = 1 ∨ columnOnes f j = 3 := by
  have parity : (f.getLsbD (12 + j) ^^ f.getLsbD (8 + j) ^^ f.getLsbD (4 + j) ^^ f.getLsbD (0 + j)) = true := by
    have bit := congrArg (BitVec.getLsbD · j) (of_decide_eq_true h)
    simp only [BitVec.getLsbD_xor, BitVec.getLsbD_extractLsb', column, decide_true, Bool.true_and] at bit
    rw [bit]
    interval_cases j <;> rfl
  simp only [Nat.add_comm _ j, Nat.add_zero] at parity
  exact one_or_three_of_xor _ _ _ _ parity

/-- The four columns are the sixteen bits. -/
theorem onesOf_eq_columns (f : Frame) :
    onesOf f = columnOnes f 0 + columnOnes f 1 + columnOnes f 2 + columnOnes f 3 := by
  have perm : (List.range 16).Perm ([0, 4, 8, 12] ++ [1, 5, 9, 13] ++ [2, 6, 10, 14] ++ [3, 7, 11, 15]) := by decide
  rw [onesOf, perm.countP_eq, List.countP_append, List.countP_append, List.countP_append]
  rfl

theorem onesOf_of_lrcHolds {f : Frame} (h : lrcHolds f = true) :
    onesOf f % 2 = 0 ∧ 4 ≤ onesOf f ∧ onesOf f ≤ 12 := by
  have zero := columnOnes_of_lrcHolds h (j := 0) (by decide)
  have one := columnOnes_of_lrcHolds h (j := 1) (by decide)
  have two := columnOnes_of_lrcHolds h (j := 2) (by decide)
  have three := columnOnes_of_lrcHolds h (j := 3) (by decide)
  rw [onesOf_eq_columns]
  omega

/-- A single field bit changes itself and the LRC bit of its column. -/
theorem singleBit_with_column : ∀ n, n < 12 →
    ((1 : Body) <<< n) ++ (((1 : Body) <<< n).extractLsb' 8 4 ^^^ ((1 : Body) <<< n).extractLsb' 4 4 ^^^
      ((1 : Body) <<< n).extractLsb' 0 4) = ((1 : Frame) <<< (n + 4)) ^^^ ((1 : Frame) <<< (n % 4)) := by
  decide

/-- Settles O8: the LRC check gives each column its parity, and the LRC is linear in the field bits. -/
theorem frameColumnsAreOdd : Obligations.FrameColumnsAreOdd := by
  refine ⟨fun fl w => exists_withLrc_of_pack, fun b => ?_⟩
  have holds := lrcHolds_withLrc b
  obtain ⟨even, low, high⟩ := onesOf_of_lrcHolds holds
  exact ⟨of_decide_eq_true holds, fun j => columnOnes_of_lrcHolds holds, even, low, high,
    fun n hn => by rw [withLrc_xor, singleBit_with_column n hn]⟩

/-! ## The source's three checksums (R78, R79) -/

section
variable (t e : Bit) (c : ChannelField) (a : Bit) (m : BitVec 3) (n : Nibble)

theorem extPattern_nibble_one : (extPattern t e c a m n).extractLsb' 12 4 =
    t.setWidth 4 * (8 : Nibble) + e.setWidth 4 * (4 : Nibble) + c.setWidth 4 :=
  (frameOf_nibble_one ..).trans (by revert t e c; decide)

theorem extPattern_nibble_two : (extPattern t e c a m n).extractLsb' 8 4 = a.setWidth 4 * (8 : Nibble) + m.setWidth 4 :=
  (frameOf_nibble_two ..).trans (by revert a m; decide)

theorem extPattern_nibble_three : (extPattern t e c a m n).extractLsb' 4 4 = n :=
  frameOf_nibble_three ..

/-- The last nibble of format X is the LRC of the others (R79). -/
theorem extPattern_nibble_four : (extPattern t e c a m n).extractLsb' 0 4 =
    lrc ((extPattern t e c a m n).extractLsb' 12 4) ((extPattern t e c a m n).extractLsb' 8 4) n := by
  have holds : lrcHolds (extPattern t e c a m n) = true := (lrcHolds_frameOf ..).mpr rfl
  rw [(lrcHolds_iff _).mp holds, extPattern_nibble_three]

end

/-- Settles O5: the SO and the CPWM pattern are cuts of format X, and their terms are its first two nibbles. -/
theorem sourceChecksumsAreOneLrc : Obligations.SourceChecksumsAreOneLrc := by
  refine ⟨fun t c m o d => ?_, fun c b r => ?_, fun t e c a m f => ⟨extPattern_nibble_one .., extPattern_nibble_two ..,
    extPattern_nibble_three .., extPattern_nibble_four ..⟩⟩
  · rw [soPattern_eq_extPattern]
    exact ⟨(extPattern_nibble_one ..).trans (by revert t c; decide),
      (extPattern_nibble_two ..).trans (by revert m o; decide), extPattern_nibble_three .., extPattern_nibble_four ..⟩
  · obtain ⟨a, m, rfl⟩ := exists_append (v := 1) (w := 3) b
    have first : (0 : Bit).setWidth 4 * (8 : Nibble) + (1 : Bit).setWidth 4 * (4 : Nibble) + c.setWidth 4 =
        ((1 : Nibble) <<< 2) ||| c.setWidth 4 := by
      revert c; decide
    have second : a.setWidth 4 * (8 : Nibble) + m.setWidth 4 = a ++ m := by
      clear first; revert a m; decide
    have last := extPattern_nibble_four 0 1 c a m r
    rw [extPattern_nibble_two, second] at last
    rw [cpwmPattern_eq_extPattern]
    exact ⟨(extPattern_nibble_one ..).trans first, (extPattern_nibble_two ..).trans second, extPattern_nibble_three .., last⟩

end Sys2Proof.Machine
end

section
/-! PROOFS. RENDER (41_packer_lrc_render.md R84 to R86, R90): a rendering is eighteen marks, each before its space, so its elements,
its reading and its time on the air are those of its list of spaces. -/

namespace Sys2Proof.Machine

/-! ## A rendering by its spaces (R84) -/

/-- The spaces of a rendering: the start burst's, the sixteen bits' from the most significant, the end burst's. -/
def spaces (f : Frame) : PulseSeq :=
  gapUs :: ((List.range 16).map fun k => if f.getLsbD (15 - k) then oneUs else zeroUs) ++ [gapUs]

/-- A mark before each of a list of spaces. -/
def withMarks (l : PulseSeq) : PulseSeq := l.flatMap fun d => [markUs, d]

theorem render_eq_withMarks (f : Frame) : render f = withMarks (spaces f) := rfl

theorem withMarks_getElem?_even (l : PulseSeq) (k : Nat) : (withMarks l)[2 * k]? = l[k]?.map fun _ => markUs := by
  induction l generalizing k with
  | nil => rfl
  | cons d l ih =>
    cases k with
    | zero => rfl
    | succ k => exact ih k

theorem withMarks_getElem?_odd (l : PulseSeq) (k : Nat) : (withMarks l)[2 * k + 1]? = l[k]? := by
  induction l generalizing k with
  | nil => rfl
  | cons d l ih =>
    cases k with
    | zero => rfl
    | succ k => exact ih k

/-- The time of a list of spaces is that of its marks and that of the spaces. -/
theorem totalUs_withMarks (l : PulseSeq) : totalUs (withMarks l) = 157 * l.length + totalUs l := by
  induction l with
  | nil => rfl
  | cons d l ih =>
    have marked : totalUs (withMarks (d :: l)) = 157 + (d.toNat + totalUs (withMarks l)) := rfl
    have bare : totalUs (d :: l) = d.toNat + totalUs l := rfl
    rw [marked, bare, ih, List.length_cons]
    omega

theorem length_spaces (f : Frame) : (spaces f).length = 18 := rfl

theorem spaces_getElem?_bit (f : Frame) {k : Nat} (h : k < 16) :
    (spaces f)[k + 1]? = some (if f.getLsbD (15 - k) then oneUs else zeroUs) := by
  simp [spaces, h, List.getElem?_append_left]

/-! ## The elements by their index (R85, R86) -/

/-- Every element with an even index is a mark. -/
theorem render_getElem?_mark (f : Frame) {k : Nat} (h : k < 18) : (render f)[2 * k]? = some 157 := by
  rw [render_eq_withMarks, withMarks_getElem?_even, List.getElem?_eq_getElem (h.trans_eq (length_spaces f).symm)]
  rfl

/-- Bit j of the frame is 1 exactly where the space of its element is that of a one. -/
theorem getLsbD_eq_space (f : Frame) {j : Nat} (h : j < 16) :
    f.getLsbD j = decide ((render f)[33 - 2 * j]? = some 552) := by
  rw [render_getElem?_space f h]
  cases f.getLsbD j <;> rfl

/-- Settles O9: marks at the even indices, the spaces of the bits and the bursts at the odd ones. -/
theorem renderIndexForm : Obligations.RenderIndexForm := by
  intro f
  refine ⟨length_render f, rfl, rfl, fun k hk => ⟨?_, ?_⟩, rfl, rfl,
    fun j => getLsbD_eq_space f, fun k => render_getElem?_mark f⟩
  · rw [show 2 + 2 * k = 2 * (k + 1) by omega]
    exact render_getElem?_mark f (by omega)
  · rw [show 3 + 2 * k = 2 * (k + 1) + 1 by omega, render_eq_withMarks, withMarks_getElem?_odd]
    exact spaces_getElem?_bit f hk

/-- A sequence that reads back is the rendering of what was read (R86). -/
theorem eq_render_of_frameOfPulses {p : PulseSeq} {f : Frame} (h : frameOfPulses p = some f) : p = render f := by
  rw [frameOfPulses] at h
  split at h
  case isTrue reads => exact Option.some.inj h ▸ reads.symm
  case isFalse => cases h

theorem render_injective {f g : Frame} (h : render f = render g) : f = g := by
  rw [← readFrame_render f, h, readFrame_render]

/-- Settles O10: reading a rendering back gives its frame, so no two frames share one. -/
theorem renderShapeAndInjective : Obligations.RenderShapeAndInjective :=
  ⟨fun f => ⟨by rw [length_render], length_render f, rfl, rfl, frameOfPulses_render f⟩, fun _ _ => render_injective,
    fun _ _ => eq_render_of_frameOfPulses⟩

/-! ## The time on the air (R90) -/

/-- The sum of two values chosen by a test counts how often each was chosen. -/
theorem sum_map_ite {α : Type} (test : α → Bool) (a b : Nat) (l : List α) :
    (l.map fun x => if test x then a else b).sum = b * (l.length - l.countP test) + a * l.countP test := by
  induction l with
  | nil => rfl
  | cons x l ih =>
    have bound := List.countP_le_length (p := test) (l := l)
    rw [List.map_cons, List.sum_cons, ih, List.countP_cons, List.length_cons]
    split
    · simp only [Nat.add_sub_add_right, Nat.mul_add_one]; omega
    · simp only [Nat.add_zero, Nat.sub_add_comm bound, Nat.mul_add_one]; omega

/-- The bits are rendered in the opposite order and are as many. -/
theorem countP_rendered_bits (f : Frame) : ((List.range 16).countP fun k => f.getLsbD (15 - k)) = onesOf f := by
  have reversed : (List.range 16).map (15 - ·) = (List.range 16).reverse := by decide
  calc ((List.range 16).countP fun k => f.getLsbD (15 - k))
    _ = ((List.range 16).map (15 - ·)).countP (fun j => f.getLsbD j) := (List.countP_map ..).symm
    _ = onesOf f := by rw [reversed, List.countP_reverse, onesOf]

theorem totalUs_spaces (f : Frame) :
    totalUs (spaces f) = 2 * 1026 + 263 * (16 - onesOf f) + 552 * onesOf f := by
  have bits : (((List.range 16).map fun k => if f.getLsbD (15 - k) then oneUs else zeroUs).map BitVec.toNat).sum =
      263 * (16 - onesOf f) + 552 * onesOf f := by
    have space (k : Nat) : (if f.getLsbD (15 - k) then oneUs else zeroUs).toNat =
        if f.getLsbD (15 - k) then 552 else 263 := apply_ite ..
    simp only [List.map_map, Function.comp_def, space, sum_map_ite, List.length_range, countP_rendered_bits]
  rw [totalUs, spaces, List.map_append, List.map_cons, List.sum_append, List.sum_cons, bits]
  change 1026 + _ + 1026 = _
  omega

theorem totalUs_render (f : Frame) :
    totalUs (render f) = 2 * (157 + 1026) + 16 * 157 + 263 * (16 - onesOf f) + 552 * onesOf f := by
  rw [render_eq_withMarks, totalUs_withMarks, length_spaces, totalUs_spaces]
  omega

/-- Settles O11: the bounds are those of a frame with four and with twelve ones (R80). -/
theorem airTimeOfAFrame : Obligations.AirTimeOfAFrame := by
  refine ⟨totalUs_render, fun fl w packed => ?_⟩
  obtain ⟨b, rfl⟩ := exists_withLrc_of_pack packed
  obtain ⟨-, low, high⟩ := onesOf_of_lrcHolds (lrcHolds_withLrc b)
  rw [totalUs_render]
  omega

end Sys2Proof.Machine
end

section
/-! PROOFS. What every operation leaves on the host's side (42_single_output.md R97 to 45_extended.md; 41_packer_lrc_render.md R83). -/

namespace Sys2Proof.Machine

@[simp] theorem put_sel (s : State) (p : Port) (v : InstanceView) : (s.put p v).sel = s.sel := by
  unfold State.put; split <;> rfl

@[simp] theorem answered_sel (s : State) (r : Request) (res : Result) (w : InstanceView) :
    (s.answered r res w).sel = if r.legal then r.index else s.sel :=
  put_sel ..

theorem portAt_proto (k : Nat) (p : Proto) : (portAt k p).proto = p := by
  cases p <;> rfl

/-- An operation on an existing interface is the answer to its own record, with the rendering of a frame (R83). -/
theorem exec_eq_answered {i : Instr} {s : State} (h : s.has (portOf i s) = true) :
    ∃ f w, exec i s = .next (s.answered (i.toRequest s.sel) (.ok (render f)) w) := by
  obtain ⟨decoded, index, legal⟩ := toRequest_spec i s.sel
  obtain ⟨v, viewed⟩ := view_of_has h
  obtain ⟨res, w, answered, accepted⟩ := acceptCommand_eq viewed
  rw [acceptCommand_of_decode_ok h decoded, index] at accepted
  obtain ⟨-, f, rfl⟩ | ⟨illegal, -⟩ := result_answer answered
  · exact ⟨f, w, accepted⟩
  · cases legal.symm.trans illegal

/-- Settles O30: the answer to an operation's own record selects the index that was selected. -/
theorem everyOperationSucceeds : Obligations.EveryOperationSucceeds := by
  intro i s present
  obtain ⟨f, w, completed⟩ := exec_eq_answered present
  obtain ⟨-, index, legal⟩ := toRequest_spec i s.sel
  refine ⟨_, render f, completed, length_render f, answered_responses .., answered_pending .., answered_sends .., ?_, ?_⟩
  · rw [answered_sel, if_pos legal, index]
  · rw [portOf, requestPort_toRequest, portAt_proto]

end Sys2Proof.Machine
end

section
/-! PROOFS. The Single-Output operations (42_single_output.md R92, R93, R95), and where the renderings of two frames differ
(41_packer_lrc_render.md R84, R86). -/

namespace Sys2Proof.Machine

/-- Settles O19: the equation of the operation, with the speed's nibble and the flip written out. -/
theorem soPwmResult : Obligations.SoPwmResult :=
  fun speed _ _ found => exec_soPwm found speed

/-- Settles O20: the equation of the operation, with the response written out. -/
theorem soDiscResult : Obligations.SoDiscResult :=
  fun code _ _ found => exec_soDisc found code

/-- The spaces of a one and of a zero differ (R8, R84). -/
theorem space_eq_iff (a b : Bool) : (if a then oneUs else zeroUs) = (if b then oneUs else zeroUs) ↔ a = b := by
  revert a b; decide

/-- An element is a mark, a burst's space, past the end, or the space of a frame bit (R84, R86). -/
theorem render_index_cases (n : Nat) :
    (∃ k < 18, n = 2 * k) ∨ n = 1 ∨ n = 35 ∨ 36 ≤ n ∨ ∃ j < 16, n = 33 - 2 * j := by
  obtain ⟨k, rfl | rfl⟩ := Nat.even_or_odd' n
  · by_cases h : k < 18
    · exact .inl ⟨k, h, rfl⟩
    · omega
  · by_cases h : 1 ≤ k ∧ k ≤ 16
    · exact .inr (.inr (.inr (.inr ⟨16 - k, by omega, by omega⟩)))
    · omega

/-- Only the space of a frame bit tells two renderings apart (R84, R86). -/
theorem exists_bit_of_render_ne {f g : Frame} {n : Nat} (h : (render f)[n]? ≠ (render g)[n]?) :
    ∃ j < 16, n = 33 - 2 * j := by
  obtain ⟨k, mark, rfl⟩ | rfl | rfl | beyond | bit := render_index_cases n
  · exact absurd ((render_getElem?_mark f mark).trans (render_getElem?_mark g mark).symm) h
  · exact absurd rfl h
  · exact absurd rfl h
  · rw [List.getElem?_eq_none ((length_render f).trans_le beyond),
      List.getElem?_eq_none ((length_render g).trans_le beyond)] at h
    exact absurd rfl h
  · exact bit

/-- At the space of bit j two renderings differ exactly where the frames do (R85). -/
theorem render_space_ne_iff (f g : Frame) {j : Nat} (h : j < 16) :
    (render f)[33 - 2 * j]? ≠ (render g)[33 - 2 * j]? ↔ (f ^^^ g).getLsbD j = true := by
  rw [render_getElem?_space f h, render_getElem?_space g h, Ne, Option.some.injEq, space_eq_iff, BitVec.getLsbD_xor,
    bne_iff_ne]

/-- Two renderings differ exactly in the spaces of the bits in which their frames do. -/
theorem render_ne_iff (f g : Frame) (n : Nat) :
    (render f)[n]? ≠ (render g)[n]? ↔ ∃ j < 16, n = 33 - 2 * j ∧ (f ^^^ g).getLsbD j = true := by
  constructor
  · intro differ
    obtain ⟨j, bit, rfl⟩ := exists_bit_of_render_ne differ
    exact ⟨j, bit, rfl, (render_space_ne_iff f g bit).mp differ⟩
  · rintro ⟨j, bit, rfl, differ⟩
    exact (render_space_ne_iff f g bit).mpr differ

theorem getLsbD_toggleAndLrc_iff : ∀ j < 16, (0x8008 : Frame).getLsbD j = true ↔ j = 3 ∨ j = 15 := by
  decide

/-- Frames that differ in bits 15 and 3 only have renderings that differ at elements 3 and 27 only (R95, R115). -/
theorem render_ne_iff_of_xor {f g : Frame} (differ : f ^^^ g = 0x8008) (n : Nat) :
    (render f)[n]? ≠ (render g)[n]? ↔ n = 3 ∨ n = 27 := by
  rw [render_ne_iff, differ]
  constructor
  · rintro ⟨j, bit, rfl, set⟩
    obtain rfl | rfl := (getLsbD_toggleAndLrc_iff j bit).mp set
    · exact .inr rfl
    · exact .inl rfl
  · rintro (rfl | rfl)
    · exact ⟨15, by decide, rfl, by decide⟩
    · exact ⟨3, by decide, rfl, by decide⟩

/-- Element 3 of an SO rendering is the space of T (R49, R85). -/
theorem render_soPattern_toggle (t : Bit) (c : ChannelField) (m o : Bit) (d : Nibble) :
    (render (soPattern t c m o d))[3]? = some (if t = 1 then oneUs else zeroUs) := by
  have space := render_getElem?_space (soPattern t c m o d) (j := 15) (by decide)
  simp only [soPattern_getLsbD_fifteen, decide_eq_true_eq] at space
  exact space

/-- Two SO.PWM of one speed: the second frame carries the flipped T (R92). -/
theorem exec_soPwm_twice {s : State} {i : SoInstance} (found : s.so[s.sel]? = some i) (speed : Speed) :
    ∃ t u, exec (.soPwm speed) s = .next t ∧ exec (.soPwm speed) t = .next u ∧
      u.responses = s.responses ++
        [⟨.so s.sel, .ok (render (soPattern i.t i.ch 0 i.out (speedNibble speed)))⟩,
          ⟨.so s.sel, .ok (render (soPattern (flipBit i.t) i.ch 0 i.out (speedNibble speed)))⟩] := by
  have flipped : (s.so.set s.sel { i with t := flipBit i.t })[s.sel]? = some { i with t := flipBit i.t } :=
    List.getElem?_set_self (index_lt_of_getElem? found)
  refine ⟨_, _, exec_soPwm found speed, exec_soPwm (i := { i with t := flipBit i.t }) flipped speed, ?_⟩
  simp only [respond_responses, respond_sel, List.append_assoc, List.singleton_append]

/-- Settles O25: the two frames differ in the Toggle bit and its LRC bit. -/
theorem consecutivePwmDifferInToggleAndLrc : Obligations.ConsecutivePwmDifferInToggleAndLrc := by
  intro speed s i found zero
  obtain ⟨t, u, first, second, responses⟩ := exec_soPwm_twice found speed
  have differ := soPattern_xor_flipBit i.t i.ch 0 i.out (speedNibble speed)
  refine ⟨t, u, _, _, first, second, responses, differ, render_ne_iff_of_xor differ, ?_, ?_⟩
  · rw [render_soPattern_toggle, zero]
    rfl
  · rw [render_soPattern_toggle, zero]
    rfl

end Sys2Proof.Machine
end

section
/-! PROOFS. Runs of host actions seen at one interface (20_memory.md R42, R43; 42_single_output.md R94, R96): a run of commands there
folds their answers, and actions that spare an SO encoder leave its T as it was. -/

namespace Sys2Proof.Machine

/-- A run goes on from where its first part ended. -/
theorem run_add_of_run {m : Nat} (n : Nat) {s t : State} (h : core.run m s = .next t) :
    core.run (m + n) s = core.run n t := by
  induction m generalizing s with
  | zero => cases h; rw [Nat.zero_add]
  | succ m ih =>
    rw [Nat.succ_add]
    simp only [Host.Core.run] at h ⊢
    split at h
    case h_1 => exact ih h
    case h_2 => cases h
    case h_3 => cases h

/-! ## Commands on one interface (R94) -/

/-- The view a command record leaves; a record of another protocol leaves the view. -/
def InstanceView.after (codes : ExtCode) (v : InstanceView) (r : Request) : InstanceView :=
  (v.answer codes r).elim v Prod.snd

theorem after_of_answer {codes : ExtCode} {v w : InstanceView} {r : Request} {res : Result}
    (h : v.answer codes r = some (res, w)) : v.after codes r = w := by
  rw [InstanceView.after, h, Option.elim_some]

/-- Commands on one interface all run, one response each; the interface holds what they leave one after the other, and no other
interface is touched (R16, R31, R42). -/
theorem run_commands {p : Port} {rs : List Request} (own : ∀ r ∈ rs, requestPort r = p) {s : State} {v : InstanceView}
    {rest : List HostEvent} (pending : s.pending = rs.map .command ++ rest) (viewed : s.view p = some v) :
    ∃ t, core.run rs.length s = .next t ∧ t.pending = rest ∧ t.codes = s.codes ∧
      t.responses.length = s.responses.length + rs.length ∧
      ∀ q, t.view q = if q = p then some (rs.foldl (InstanceView.after s.codes) v) else s.view q := by
  induction rs generalizing s v with
  | nil =>
    refine ⟨s, rfl, pending, rfl, rfl, fun q => ?_⟩
    split
    case isTrue same => rw [same]; exact viewed
    case isFalse => rfl
  | cons r rs ih =>
    obtain ⟨rfl, own⟩ := List.forall_mem_cons.mp own
    obtain ⟨res, w, answered, -⟩ := acceptCommand_eq viewed
    obtain ⟨u, stepped, codes, pending₁, -, responses₁, views₁⟩ := step_of_answer pending viewed answered
    obtain ⟨t, ran, pending₂, codes₂, responses₂, views₂⟩ := ih own pending₁ ((views₁ _).trans (if_pos rfl))
    refine ⟨t, (run_succ_of_step stepped).trans ran, pending₂, codes₂.trans codes, ?_, fun q => ?_⟩
    · rw [responses₂, responses₁, List.length_append, List.length_singleton, List.length_cons]
      omega
    · rw [views₂, codes, List.foldl_cons, after_of_answer answered, views₁]
      split <;> rfl

/-- T advanced by `n`, modulo 2 (R94). -/
def SoInstance.advance (i : SoInstance) (n : Nat) : SoInstance := { i with t := i.t + BitVec.ofNat 1 n }

theorem advance_zero (i : SoInstance) : i.advance 0 = i :=
  congrArg (SoInstance.mk i.ch i.out) (BitVec.add_zero i.t)

theorem advance_one (i : SoInstance) : i.advance 1 = { i with t := flipBit i.t } :=
  congrArg (SoInstance.mk i.ch i.out) (flipBit_eq_add_one i.t).symm

theorem advance_advance (i : SoInstance) (m n : Nat) : (i.advance m).advance n = i.advance (m + n) := by
  simp only [SoInstance.advance, BitVec.ofNat_add, BitVec.add_assoc]

/-- An SO record advances T by 1 for SO.PWM, by 0 for SO.DISC (R92, R93). -/
theorem after_so (codes : ExtCode) (k : Nat) (i : SoInstance) (cmd : SoCmd) :
    (InstanceView.so i).after codes (.so k cmd) = .so (i.advance (if cmd.kind = 0 then 1 else 0)) := by
  by_cases pwm : cmd.kind = 0
  · simp only [InstanceView.after, InstanceView.answer, if_pos pwm, Option.elim_some, advance_one]
  · simp only [InstanceView.after, InstanceView.answer, if_neg pwm, Option.elim_some, advance_zero]

/-- Over a list of records these advances add up (R94). -/
theorem foldl_after_so (codes : ExtCode) (k : Nat) (cmds : List SoCmd) (i : SoInstance) :
    (cmds.map (Request.so k)).foldl (InstanceView.after codes) (.so i) =
      .so (i.advance (cmds.countP fun c => decide (c.kind = 0))) := by
  induction cmds generalizing i with
  | nil => rw [List.countP_nil, advance_zero]; rfl
  | cons c cmds ih =>
    rw [List.map_cons, List.foldl_cons, after_so, ih, advance_advance, List.countP_cons, Nat.add_comm]
    simp only [decide_eq_true_eq]

/-- Settles O50: the commands' run, with the fold of their answers counted. -/
theorem soToggleCountsPwmCommands : Obligations.SoToggleCountsPwmCommands := by
  intro cmds s k i rest found pending
  have viewed : s.view (.so k) = some (.so i) := congrArg (Option.map _) found
  obtain ⟨t, ran, emptied, codes, responses, views⟩ :=
    run_commands (p := .so k) (rs := cmds.map (.so k)) (rest := rest)
      (List.forall_mem_map.mpr fun _ _ => rfl) (by rw [pending, List.map_map]; rfl) viewed
  rw [List.length_map] at ran responses
  simp only [foldl_after_so] at views
  obtain ⟨so, cpwm, cdir, ext⟩ := banks_of_views fun q => (views q).trans (view_put viewed (by rfl) q).symm
  exact ⟨t, ran, emptied, so, cpwm, cdir, ext, codes, responses⟩

/-! ## Actions between two commands (R96) -/

/-- A step on an action other than power-off whose interface exists: it completes, every interface is still there, and responses
are only appended (R31, R42). -/
theorem step_of_present {s : State} {e : HostEvent} {rest : List HostEvent} (pending : s.pending = e :: rest)
    (command : ∀ r, e = .command r → s.has (requestPort r) = true) (reset : ∀ q, e = .reset q → s.has q = true)
    (powered : e ≠ .powerOff) :
    ∃ t, step s = .next t ∧ t.pending = rest ∧ (∀ q, s.has q = true → t.has q = true) ∧
      ∃ added, t.responses = s.responses ++ added := by
  have stepped := step_of_pending pending
  have kept (q : Port) : ({ s with pending := rest } : State).has q = s.has q := has_with_host_side s q s.sel rest
  cases e with
  | construct c =>
    refine ⟨_, stepped, construct_pending .., fun q present => has_construct c ((kept q).trans present), [], ?_⟩
    rw [construct_responses, List.append_nil]
  | reset p =>
    obtain ⟨t, completed, present, taken, responses⟩ := resetInstance_of_has ((kept p).trans (reset p rfl))
    refine ⟨t, stepped.trans completed, taken, fun q was => (present q).trans ((kept q).trans was), [], ?_⟩
    rw [responses, List.append_nil]
  | command r =>
    obtain ⟨v, viewed⟩ := view_of_has (command r rfl)
    obtain ⟨res, w, answered, -⟩ := acceptCommand_eq viewed
    obtain ⟨t, completed, -, taken, -, responses, views⟩ := step_of_answer pending viewed answered
    refine ⟨t, completed, taken, fun q was => ?_, _, responses⟩
    rw [has_eq_isSome_view, views]
    split
    case isTrue => rfl
    case isFalse => exact (has_eq_isSome_view s q).symm.trans was
  | send p o => exact ⟨_, stepped, rfl, fun q => (kept q).trans, [], (List.append_nil _).symm⟩
  | powerOff => exact absurd rfl powered

/-- An action on an interface that exists which neither is an SO.PWM of SO encoder `k` nor ends that encoder's lifetime
(R17, R96). -/
structure Spares (s : State) (k : Nat) (e : HostEvent) : Prop where
  command : ∀ r, e = .command r → s.has (requestPort r) = true
  reset : ∀ q, e = .reset q → s.has q = true
  notPwm : ∀ speed d, e ≠ .command (.so k ⟨0, speed, d⟩)
  notReset : e ≠ .reset (.so k)
  powered : e ≠ .powerOff

/-- It spares the encoder in every later state too, as long as no interface is gone. -/
theorem Spares.mono {s t : State} {k : Nat} {e : HostEvent} (h : Spares s k e)
    (present : ∀ q, s.has q = true → t.has q = true) : Spares t k e :=
  { h with
    command := fun r is => present _ (h.command r is)
    reset := fun q is => present q (h.reset q is) }

/-- Such an action leaves the encoder as it was: T changes by its own SO.PWM or reset only (R14, R139). -/
theorem step_of_spares {s : State} {k : Nat} {i : SoInstance} {e : HostEvent} {rest : List HostEvent}
    (pending : s.pending = e :: rest) (spares : Spares s k e) (found : s.so[k]? = some i) :
    ∃ t, step s = .next t ∧ t.pending = rest ∧ t.so[k]? = some i ∧ (∀ q, s.has q = true → t.has q = true) ∧
      ∃ added, t.responses = s.responses ++ added := by
  obtain ⟨t, stepped, taken, present, responses⟩ := step_of_present pending spares.command spares.reset spares.powered
  obtain ⟨j, left⟩ : ∃ j, t.so[k]? = some j :=
    ⟨_, List.getElem?_eq_getElem (of_decide_eq_true (present _ (has_so found)))⟩
  refine ⟨t, stepped, taken, ?_, present, responses⟩
  obtain rfl | ⟨-, speed, d, _, pwm⟩ | ⟨-, _, reset⟩ := so_change_of_step stepped found left
  · exact left
  · exact absurd (List.cons.inj (pending.symm.trans pwm)).1 (spares.notPwm speed d)
  · exact absurd (List.cons.inj (pending.symm.trans reset)).1 spares.notReset

/-- So does any number of such actions (R96). -/
theorem run_of_spares {k : Nat} {i : SoInstance} {between rest : List HostEvent} {s : State}
    (pending : s.pending = between ++ rest) (spares : ∀ e ∈ between, Spares s k e) (found : s.so[k]? = some i) :
    ∃ t, core.run between.length s = .next t ∧ t.pending = rest ∧ t.so[k]? = some i ∧
      ∃ added, t.responses = s.responses ++ added := by
  induction between generalizing s with
  | nil => exact ⟨s, rfl, pending, found, [], (List.append_nil _).symm⟩
  | cons e between ih =>
    obtain ⟨first, later⟩ := List.forall_mem_cons.mp spares
    obtain ⟨u, stepped, pending₁, found₁, present, added₁, responses₁⟩ := step_of_spares pending first found
    obtain ⟨t, ran, pending₂, found₂, added₂, responses₂⟩ :=
      ih pending₁ (fun e mem => (later e mem).mono present) found₁
    refine ⟨t, (run_succ_of_step stepped).trans ran, pending₂, found₂, added₁ ++ added₂, ?_⟩
    rw [responses₂, responses₁, List.append_assoc]

/-- The step on an SO.DISC record: the operation on its own encoder, which reads T and does not write it (R30, R93). -/
theorem step_soDisc {s : State} {k : Nat} {i : SoInstance} {v : Speed} {d : Nibble} {rest : List HostEvent}
    (pending : s.pending = .command (.so k ⟨1, v, d⟩) :: rest) (found : s.so[k]? = some i) :
    ∃ t, step s = .next t ∧ t.pending = rest ∧ t.so[k]? = some i ∧ (∀ q, s.has q = true → t.has q = true) ∧
      t.responses = s.responses ++ [⟨.so k, .ok (render (soPattern i.t i.ch 1 i.out d))⟩] := by
  have accepted : acceptCommand (.so k ⟨1, v, d⟩) { s with pending := rest } =
      exec (.soDisc d) { s with sel := k, pending := rest } :=
    acceptCommand_of_decode_ok (has_so found) rfl
  have executed := exec_soDisc (s := { s with sel := k, pending := rest }) found d
  exact ⟨_, (step_of_pending pending).trans (accepted.trans executed), rfl, found,
    fun q => (has_with_host_side s q k rest).trans, rfl⟩

/-- R96, with any actions between the two SO.DISC that spare the encoder. -/
theorem soDisc_between_soDisc {s : State} {k : Nat} {i : SoInstance} {v w : Speed} {code : Nibble}
    {between rest : List HostEvent} (found : s.so[k]? = some i) (spares : ∀ e ∈ between, Spares s k e)
    (pending : s.pending = .command (.so k ⟨1, v, code⟩) :: (between ++ .command (.so k ⟨1, w, code⟩) :: rest)) :
    ∃ (t : State) (p : PulseSeq) (middle : List Response), core.run (between.length + 2) s = .next t ∧
      t.pending = rest ∧ t.so[k]? = some i ∧
      t.responses = s.responses ++ [⟨.so k, .ok p⟩] ++ middle ++ [⟨.so k, .ok p⟩] := by
  obtain ⟨u, first, pending₁, found₁, present, responses₁⟩ := step_soDisc pending found
  obtain ⟨x, ran, pending₂, found₂, middle, responses₂⟩ :=
    run_of_spares pending₁ (fun e mem => (spares e mem).mono present) found₁
  obtain ⟨t, last, pending₃, found₃, -, responses₃⟩ := step_soDisc pending₂ found₂
  refine ⟨t, render (soPattern i.t i.ch 1 i.out code), middle, ?_, pending₃, found₃, ?_⟩
  · calc core.run (between.length + 2) s
      _ = core.run (between.length + 1) u := run_succ_of_step first
      _ = core.run 1 x := run_add_of_run 1 ran
      _ = .next t := run_succ_of_step last
  · rw [responses₃, responses₂, responses₁]

/-- Settles O26: nothing in a row of two SO.DISC, or the actions between them, changes the T that both frames carry. -/
theorem consecutiveDiscreteAreIdentical : Obligations.ConsecutiveDiscreteAreIdentical := by
  constructor
  · intro code s i found
    exact ⟨_, _, _, exec_soDisc found code, exec_soDisc (s := respond _ _ s) found code, List.append_assoc .., rfl, rfl⟩
  · intro code v w s k i between rest found notPwm notReset powered command reset pending
    refine soDisc_between_soDisc found (fun e mem => ?_) pending
    exact {
      command := fun r is => command r (is ▸ mem)
      reset := fun q is => reset q (is ▸ mem)
      notPwm := fun speed d is => notPwm speed d (is ▸ mem)
      notReset := fun is => notReset (is ▸ mem)
      powered := fun is => powered (is ▸ mem) }

end Sys2Proof.Machine
end

section
/-! PROOFS. The two protocols without registers, Combo-PWM and Combo-Direct (43_combo_pwm.md R99, R100; 44_combo_direct.md R104). -/

namespace Sys2Proof.Machine

/-- Settles O21: the equation of the operation, with the nibbles of both speeds and the response written out. -/
theorem cpwmResult : Obligations.CpwmResult :=
  fun red blue _ _ found => exec_cpwm found red blue

/-- A speed reaches a frame through its CLAMP only (R70, R100). -/
theorem speedNibble_congr {v w : Speed} (clamped : clamp v.toInt = clamp w.toInt) : speedNibble v = speedNibble w :=
  congrArg (BitVec.ofNat 4) ((quantize_eq_iff _ _).mpr clamped)

/-- Settles O29: the equations of the two operations read no more of a state than its instance; for CPWM the nibbles of speeds with
equal clamps are the same, for CDIR the top bit of format X is T = 0. -/
theorem statelessProtocolsAreFunctions : Obligations.StatelessProtocolsAreFunctions := by
  constructor
  · intro s s' i r b r' b' found found' red blue
    have first := exec_cpwm found r b
    have second := exec_cpwm found' r' b'
    rw [← speedNibble_congr red, ← speedNibble_congr blue] at second
    exact ⟨_, _, _, first, second, rfl, rfl⟩
  · intro s s' i r b found found'
    have top : (extPattern 0 0 i.ch 0 1 (b.code ++ r.code)).getLsbD 15 = false := extPattern_getLsbD_fifteen ..
    exact ⟨_, _, _, exec_cdir found r b, exec_cdir found' r b, rfl, rfl, top⟩

end Sys2Proof.Machine
end

section
/-! PROOFS. The Combo-Direct operation (44_combo_direct.md R103). -/

namespace Sys2Proof.Machine

/-- Settles O22: the equation of the operation, with the appended response written out. Format X carries T = E = a = 0 and M = 1, and
the data nibble is blue's code above red's by `directData_eq` (R59), which `exec_cdir` rests on. -/
theorem cdirResult : Obligations.CdirResult :=
  fun red blue _ _ found => exec_cdir found red blue

end Sys2Proof.Machine
end

section
/-! PROOFS. The Extended operations (45_extended.md R107 to R117): what one command and two commands in a row leave and send, and what
a sequence of command records counts. -/

namespace Sys2Proof.Machine

/-! ## One command (R107, R121) -/

/-- A selector above 5 names nothing (R65). -/
theorem ofSelector_eq_none {x : BitVec 3} (illegal : 6 ≤ x.toNat) : ExtCommand.ofSelector x = none := by
  rw [← Option.not_isSome_iff_eq_none, (ofSelector_spec x).1]
  omega

/-- A step on an EXT record that names nothing answers BadCommand; no register is written and no interface selected (R121). -/
theorem step_of_illegal_selector {s : State} {k : Nat} {cmd : ExtCmd} {rest : List HostEvent}
    (pending : s.pending = .command (.ext k cmd) :: rest) (present : s.has (.ext k) = true)
    (illegal : 6 ≤ cmd.xcmd.toNat) :
    step s = .next (respond (.ext k) (.err .badCommand) { s with pending := rest }) :=
  (step_of_pending pending).trans
    (acceptCommand_of_decode_error ((has_with_host_side s (.ext k) s.sel rest).trans present)
      (decode_ext_of_none (ofSelector_eq_none illegal)))

/-- Settles O23: the equation of the common body, read for each of the six commands, and the step on an illegal selector. -/
theorem extendedCommonBody : Obligations.ExtendedCommonBody := by
  constructor
  · intro s i found
    exact ⟨exec_ext found .brakeThenFloat, exec_ext found .incrementSpeed, exec_ext found .decrementSpeed,
      exec_ext found .toggleForwardOrFloat, exec_ext found .toggleAddress, exec_ext found .alignToggle⟩
  · intro s k cmd rest pending present illegal
    exact step_of_illegal_selector pending present illegal

/-! ## The same command twice (R115, R116) -/

/-- The frame an instance sends for a command: T and A as they are (R107). -/
def ExtInstance.frame (codes : ExtCode) (c : ExtCommand) (i : ExtInstance) : Frame :=
  extPattern i.t 0 i.ch i.a 0 (codes.code c)

/-- The instance a command leaves: T flipped, A for ToggleAddress only (R107, R114). -/
def ExtInstance.flipped (c : ExtCommand) (i : ExtInstance) : ExtInstance :=
  { i with t := flipBit i.t, a := if c = .toggleAddress then flipBit i.a else i.a }

theorem ExtInstance.flipped_flipped (c : ExtCommand) (i : ExtInstance) : (i.flipped c).flipped c = i := by
  by_cases address : c = .toggleAddress
  · simp only [ExtInstance.flipped, if_pos address, flipBit_flipBit]
  · simp only [ExtInstance.flipped, if_neg address, flipBit_flipBit]

/-- A command that leaves A changes the Toggle bit and the LRC bit of its column in the next frame (R115). -/
theorem ExtInstance.frame_xor_of_ne (codes : ExtCode) {c : ExtCommand} (other : c ≠ .toggleAddress) (i : ExtInstance) :
    i.frame codes c ^^^ (i.flipped c).frame codes c = 0x8008 := by
  simp only [ExtInstance.frame, ExtInstance.flipped, if_neg other, extPattern_xor_flipBit]

/-- ToggleAddress changes the Toggle and the address bit in the next frame (R116). -/
theorem ExtInstance.frame_xor_toggleAddress (codes : ExtCode) (i : ExtInstance) :
    i.frame codes .toggleAddress ^^^ (i.flipped .toggleAddress).frame codes .toggleAddress = 0x8800 :=
  extPattern_xor_flipBit_flipBit ..

/-- The same command twice: the second frame carries the registers the first one left, and the instance is back where it was
(R107, R114). -/
theorem exec_ext_twice {s : State} {i : ExtInstance} (found : s.ext[s.sel]? = some i) (c : ExtCommand) :
    ∃ t u, exec c.instr s = .next t ∧ exec c.instr t = .next u ∧
      t.ext = s.ext.set s.sel (i.flipped c) ∧ u.ext = s.ext ∧
      t.responses = s.responses ++ [⟨.ext s.sel, .ok (render (i.frame s.codes c))⟩] ∧
      u.responses = t.responses ++ [⟨.ext s.sel, .ok (render ((i.flipped c).frame s.codes c))⟩] := by
  have left : (s.ext.set s.sel (i.flipped c))[s.sel]? = some (i.flipped c) :=
    List.getElem?_set_self (index_lt_of_getElem? found)
  have restored : (s.ext.set s.sel (i.flipped c)).set s.sel ((i.flipped c).flipped c) = s.ext := by
    rw [List.set_set, ExtInstance.flipped_flipped, set_eq_self_of_getElem? found]
  exact ⟨_, _, exec_ext found c, exec_ext (i := i.flipped c) left c, rfl, restored, rfl, rfl⟩

/-- Settles O27: the two frames differ in the Toggle bit and its LRC bit; the example evaluates them for code 0 (log entry 4). -/
theorem consecutiveExtendedDifferInToggleAndLrc : Obligations.ConsecutiveExtendedDifferInToggleAndLrc := by
  intro c s i other found
  obtain ⟨t, u, first, second, -, -, responses₁, responses₂⟩ := exec_ext_twice found c
  have differ := i.frame_xor_of_ne s.codes other
  refine ⟨t, u, _, _, first, second, ?_, differ, render_ne_iff_of_xor differ, ?_⟩
  · rw [responses₂, responses₁, List.append_assoc, List.singleton_append]
  · rintro rfl rfl codes
    rw [codes]
    decide

/-- Settles O28: T and A flip twice, and the changes of the LRC bit in their common column cancel. -/
theorem toggleAddressTwiceRestores : Obligations.ToggleAddressTwiceRestores := by
  intro s i found
  obtain ⟨t, u, first, second, flipped, restored, responses₁, responses₂⟩ := exec_ext_twice found .toggleAddress
  have differ := i.frame_xor_toggleAddress s.codes
  refine ⟨t, u, _, _, first, second, flipped, restored, ?_, differ, ?_⟩
  · rw [responses₂, responses₁, List.append_assoc, List.singleton_append]
  · rw [← BitVec.xor_eq_zero_iff, ← BitVec.extractLsb'_xor, differ]
    decide

/-! ## The examples (R108 to R113) -/

/-- A command on a fresh channel-One instance under the default EXT_CODE, given its frame (log entry 4). -/
theorem exec_ext_fresh {s : State} (found : s.ext[s.sel]? = some ⟨0, 0, 0⟩) (codes : s.codes = ExtCode.standard)
    (c : ExtCommand) {f : Frame} (frame : ExtInstance.frame ExtCode.standard c ⟨0, 0, 0⟩ = f) :
    exec c.instr s = .next { s with
      ext := s.ext.set s.sel (ExtInstance.flipped c ⟨0, 0, 0⟩)
      responses := s.responses ++ [⟨.ext s.sel, .ok (render f)⟩] } := by
  rw [← frame, ← codes]
  exact exec_ext found c

/-- Settles O24: the frame of each command evaluated, and the second EXT.TGA from the state the first one leaves. -/
theorem extendedExamples : Obligations.ExtendedExamples := by
  intro s found codes
  refine ⟨exec_ext_fresh found codes .brakeThenFloat (by decide), exec_ext_fresh found codes .incrementSpeed (by decide),
    exec_ext_fresh found codes .decrementSpeed (by decide), exec_ext_fresh found codes .toggleForwardOrFloat (by decide),
    exec_ext_fresh found codes .toggleAddress (by decide), exec_ext_fresh found codes .alignToggle (by decide),
    fun t executed => ?_⟩
  have frame : (ExtInstance.flipped .toggleAddress ⟨0, 0, 0⟩).frame ExtCode.standard .toggleAddress = 0x8869 := by decide
  obtain ⟨t', u, first, second, -, restored, -, responses⟩ := exec_ext_twice found .toggleAddress
  cases first.symm.trans executed
  rw [codes, frame] at responses
  exact ⟨u, second, restored, responses⟩

/-! ## A sequence of command records (R114, R117) -/

/-- T advanced by `m` and A by `n`, modulo 2 (R114). -/
def ExtInstance.advance (i : ExtInstance) (m n : Nat) : ExtInstance :=
  { i with t := i.t + BitVec.ofNat 1 m, a := i.a + BitVec.ofNat 1 n }

theorem ExtInstance.advance_zero (i : ExtInstance) : i.advance 0 0 = i := by
  simp only [ExtInstance.advance, BitVec.add_zero]

theorem ExtInstance.advance_advance (i : ExtInstance) (m n m' n' : Nat) :
    (i.advance m n).advance m' n' = i.advance (m + m') (n + n') := by
  simp only [ExtInstance.advance, BitVec.ofNat_add, BitVec.add_assoc]

/-- A flip is an advance by 1 (R114). -/
theorem ExtInstance.flipped_eq_advance (c : ExtCommand) (i : ExtInstance) :
    i.flipped c = i.advance 1 (if c = .toggleAddress then 1 else 0) := by
  by_cases address : c = .toggleAddress
  · simp only [ExtInstance.flipped, ExtInstance.advance, if_pos address, flipBit_eq_add_one, BitVec.ofNat_eq_ofNat]
  · simp only [ExtInstance.flipped, ExtInstance.advance, if_neg address, flipBit_eq_add_one, BitVec.ofNat_eq_ofNat,
      BitVec.add_zero]

/-- An EXT record advances T by 1 if it is legal and A by 1 if it is EXT.TGA; an illegal one advances neither (R107, R117). -/
theorem after_ext (codes : ExtCode) (k : Nat) (i : ExtInstance) (cmd : ExtCmd) :
    (InstanceView.ext i).after codes (.ext k cmd) =
      .ext (i.advance (if cmd.xcmd.toNat ≤ 5 then 1 else 0) (if cmd.xcmd = 4 then 1 else 0)) := by
  obtain ⟨legal, address⟩ := ofSelector_spec cmd.xcmd
  simp only [← legal, ← address, InstanceView.after, InstanceView.answer]
  cases selected : ExtCommand.ofSelector cmd.xcmd with
  | some c =>
    simp only [Option.elim_some, Option.isSome_some, if_true, Option.some.injEq]
    exact congrArg InstanceView.ext (i.flipped_eq_advance c)
  | none =>
    simp only [Option.elim_some, Option.isSome_none, reduceCtorEq, Bool.false_eq_true, if_false, ExtInstance.advance_zero]

/-- Over a list of records these advances add up (R114). -/
theorem foldl_after_ext (codes : ExtCode) (k : Nat) (cmds : List ExtCmd) (i : ExtInstance) :
    (cmds.map (Request.ext k)).foldl (InstanceView.after codes) (.ext i) =
      .ext (i.advance (cmds.countP fun c => decide (c.xcmd.toNat ≤ 5)) (cmds.countP fun c => decide (c.xcmd = 4))) := by
  induction cmds generalizing i with
  | nil => exact congrArg InstanceView.ext i.advance_zero.symm
  | cons c cmds ih =>
    rw [List.map_cons, List.foldl_cons, after_ext, ih, ExtInstance.advance_advance, List.countP_cons, List.countP_cons,
      Nat.add_comm, Nat.add_comm (if c.xcmd = 4 then 1 else 0)]
    simp only [decide_eq_true_eq]

/-- Settles O51: the commands' run, with the fold of their answers counted. -/
theorem extRegistersCountCommands : Obligations.ExtRegistersCountCommands := by
  intro cmds s k i rest found pending
  have viewed : s.view (.ext k) = some (.ext i) := congrArg (Option.map _) found
  obtain ⟨t, ran, emptied, codes, responses, views⟩ :=
    run_commands (p := .ext k) (rs := cmds.map (.ext k)) (rest := rest)
      (List.forall_mem_map.mpr fun _ _ => rfl) (by rw [pending, List.map_map]; rfl) viewed
  rw [List.length_map] at ran responses
  simp only [foldl_after_ext] at views
  obtain ⟨so, cpwm, cdir, ext⟩ := banks_of_views fun q => (views q).trans (view_put viewed (by rfl) q).symm
  exact ⟨t, ran, emptied, ext, so, cpwm, cdir, codes, responses⟩

end Sys2Proof.Machine
end

section
/-! PROOFS. Errors, and what stops a step (60_exceptions.md R120 to R126), the pulse stream (20_memory.md R33), the instances after
reset (60_exceptions.md R133) and a send (60_exceptions.md R124). -/

namespace Sys2Proof.Machine

/-! ## The illegal records (R121) -/

/-- The selectors above 5 are 6 and 7 (R65). -/
theorem six_le_selector_iff (x : BitVec 3) : 6 ≤ x.toNat ↔ x = 6 ∨ x = 7 := by
  revert x
  decide

/-- Every value of every field of an SO, CPWM or CDIR record is legal; an EXT record is illegal for the selectors 6 and 7 alone. -/
theorem legal_eq_false_iff (r : Request) :
    r.legal = false ↔ ∃ (k : Nat) (cmd : ExtCmd), r = .ext k cmd ∧ (cmd.xcmd = 6 ∨ cmd.xcmd = 7) := by
  cases r with
  | so | cpwm | cdir => simp [Request.legal]
  | ext k cmd => simpa [Request.legal, ExtCmd.legal, Nat.succ_le_iff] using six_le_selector_iff cmd.xcmd

/-- Settles O31: an illegal record is an EXT record with selector 6 or 7, and the step on such a record is known. -/
theorem badCommandIsTheOnlyIllegalRecord : Obligations.BadCommandIsTheOnlyIllegalRecord := by
  refine ⟨fun s r rest pending present illegal => ?_, legal_eq_false_iff⟩
  obtain ⟨k, cmd, rfl, selector⟩ := (legal_eq_false_iff r).mp illegal
  have above : 6 ≤ cmd.xcmd.toNat := (six_le_selector_iff cmd.xcmd).mpr selector
  exact ⟨⟨k, cmd, rfl, selector⟩, step_of_illegal_selector pending present above, rfl⟩

/-! ## What stops a step (R125, R126; log entry 9) -/

/-- A step on a command to an interface that does not exist is refused. -/
theorem step_of_absent_command {s : State} {r : Request} {rest : List HostEvent} (pending : s.pending = .command r :: rest)
    (absent : s.has (requestPort r) = false) : step s = .refused .noSuchInstance :=
  (step_of_pending pending).trans (acceptCommand_of_absent ((has_with_host_side s _ s.sel rest).trans absent))

/-- A step on a reset of an interface that does not exist is refused. -/
theorem step_of_absent_reset {s : State} {p : Port} {rest : List HostEvent} (pending : s.pending = .reset p :: rest)
    (absent : s.has p = false) : step s = .refused .noSuchInstance :=
  (step_of_pending pending).trans (resetInstance_of_absent ((has_with_host_side s p s.sel rest).trans absent))

/-- Settles O34: action by action; commands and resets by whether their interface exists. -/
theorem stepStopsOnlyOnAbsentInstance : Obligations.StepStopsOnlyOnAbsentInstance := by
  intro s
  cases pending : s.pending with
  | nil => exact .inl ⟨s, step_of_pending_nil pending⟩
  | cons e rest =>
    cases e with
    | construct c => exact .inl ⟨_, step_of_pending pending⟩
    | send p o => exact .inl ⟨_, step_of_pending pending⟩
    | powerOff => exact .inl ⟨_, step_of_pending pending⟩
    | reset p =>
      cases present : s.has p with
      | true =>
        obtain ⟨t, completed, -⟩ := resetInstance_of_has ((has_with_host_side s p s.sel rest).trans present)
        exact .inl ⟨t, (step_of_pending pending).trans completed⟩
      | false => exact .inr ⟨step_of_absent_reset pending present, _, rest, rfl, .inl ⟨p, rfl, present⟩⟩
    | command r =>
      cases present : s.has (requestPort r) with
      | true =>
        obtain ⟨v, viewed⟩ := view_of_has present
        obtain ⟨_, _, -, completed⟩ := step_command pending viewed
        exact .inl ⟨_, completed⟩
      | false => exact .inr ⟨step_of_absent_command pending present, _, rest, rfl, .inr ⟨r, rfl, present⟩⟩

/-! ## The pulse stream (R33) -/

/-- Transfer `n` of a stream carries element `n`, and is marked last where the sequence ends with it. -/
theorem beats_getElem? (p : PulseSeq) (n : Nat) :
    (beats p)[n]? = p[n]?.map fun d => ⟨d, decide (n + 1 = p.length)⟩ := by
  induction p using beats.induct generalizing n with
  | case1 => rfl
  | case2 d => cases n <;> simp [beats]
  | case3 d e rest ih =>
    cases n with
    | zero => simp [beats]
    | succ n => simp [beats, ih]

/-- Settles O33: the codes are the definition's own, and the stream is read index by index. -/
theorem statusAndPulseStream : Obligations.StatusAndPulseStream := by
  refine ⟨fun p => rfl, rfl, rfl, fun p => ⟨?_, fun n b transfer => ?_⟩⟩
  · refine List.ext_getElem? fun n => ?_
    simp [Result.stream, beats_getElem?, Function.comp_def]
  · obtain ⟨d, -, rfl⟩ := Option.map_eq_some_iff.mp ((beats_getElem? p n).symm.trans transfer)
    exact decide_eq_true_iff

/-! ## The instances after reset (R133; log entry 2) -/

theorem mem_allChannels (ch : ChannelField) : ch ∈ allChannels := by
  revert ch
  decide

/-- An output field is RED's or BLUE's (R58). -/
theorem output_field_cases (out : Bit) : out = Output.red.field ∨ out = Output.blue.field := by
  revert out
  decide

/-- Settles O39: the twenty configurations are compared, and each is found by its channel and output. -/
theorem resetHasTheFullComplement : Obligations.ResetHasTheFullComplement := by
  refine ⟨by decide, rfl, fun c => ?_⟩
  cases c with
  | so ch out =>
    obtain rfl | rfl := output_field_cases out <;>
      simp [State.configs, State.reset, mem_allChannels, or_and_right, exists_or]
  | cpwm ch | cdir ch | ext ch => simp [State.configs, State.reset, mem_allChannels]

/-! ## A send (R124) -/

/-- Settles O41: a send only appends to the host's record, whatever the sequence and the outcome. -/
theorem sendChangesNoInstance : Obligations.SendChangesNoInstance :=
  fun _ _ _ _ pending => step_of_pending pending

end Sys2Proof.Machine
end

section
/-! PROOFS. A reset and a construction as steps: the registers of the lifetime they begin (70_reset_and_hazards.md R137, R138). -/

namespace Sys2Proof.Machine

/-! ## A reset begins a new lifetime (R137) -/

/-- A step on a reset of an interface that exists clears the view there. -/
theorem step_reset {s : State} {p : Port} {v : InstanceView} {rest : List HostEvent}
    (pending : s.pending = .reset p :: rest) (viewed : s.view p = some v) :
    step s = .next (({ s with pending := rest } : State).put p v.cleared) :=
  (step_of_pending pending).trans (resetInstance_eq ((view_with_pending p s rest).trans viewed))

/-- Where a view has no register to clear, a step on its reset only takes the action off. -/
theorem step_reset_of_cleared_eq {s : State} {p : Port} {v : InstanceView} {rest : List HostEvent}
    (pending : s.pending = .reset p :: rest) (viewed : s.view p = some v) (unregistered : v.cleared = v) :
    step s = .next { s with pending := rest } := by
  rw [step_reset pending viewed, unregistered, put_of_view ((view_with_pending p s rest).trans viewed)]

/-- Settles O37: SO and EXT banks are set at the cleared instance; CPWM and CDIR instances hold no register. -/
theorem resetClearsRegistersKeepsConfiguration : Obligations.ResetClearsRegistersKeepsConfiguration :=
  ⟨fun _ _ _ _ pending found => step_reset pending (congrArg (Option.map InstanceView.so) found),
    fun _ _ _ _ pending found => step_reset pending (congrArg (Option.map InstanceView.ext) found),
    fun _ _ _ _ pending found => step_reset_of_cleared_eq pending (congrArg (Option.map InstanceView.cpwm) found) rfl,
    fun _ _ _ _ pending found => step_reset_of_cleared_eq pending (congrArg (Option.map InstanceView.cdir) found) rfl⟩

/-! ## Registers after construction (R27, R123, R138; log entries 2 and 19) -/

/-- Settles O38: the reset state builds each instance with registers 0, and so does a construction of each protocol. -/
theorem registersAreZeroAfterConstruction : Obligations.RegistersAreZeroAfterConstruction := by
  refine ⟨fun i member => ?_, List.forall_mem_map.mpr fun _ _ => ⟨rfl, rfl⟩, fun s rest c pending => ?_⟩
  · obtain ⟨ch, -, built⟩ := List.mem_flatMap.mp member
    obtain rfl | rfl := List.mem_pair.mp built <;> rfl
  · rw [step_of_pending pending]
    cases c <;> rfl

end Sys2Proof.Machine
end
